-- ==== Sys2Proof/Word.lean ====
section
/-! DEFINITION. The value types of the OCC-OOK codec: bytes and line levels (spec 00_scope.md R10). A timestamp or a stored
duration is an unsigned number of microseconds (R6). Its width `TS_W` is a parameter of the machine (R8), so it is a `Nat`, reduced modulo
`2^TS_W` wherever one is sampled or computed (`Params.stamp`; log 20). -/

namespace Sys2Proof

/-- A byte: 8 bits, `b[7]` the most significant (R10). -/
abbrev Byte := BitVec 8

/-- A line level: `false` is 0 (carrier off), `true` is 1 (carrier on) (R10). -/
abbrev Level := Bool

end Sys2Proof
end

