-- ==== Sys2Proof/Syntax.lean ====
section
/-! DEFINITION. The operations of spec/opcode_table.json, the codes they are decoded from, the inputs of a tick and the
stimuli that are placed for a machine to read (spec 30_encoding.md R70 to R77, R82; 10_state.md R16, R40). -/

namespace Sys2Proof

/-- The role of a device (R16): 0 is the Sender, 1 the Receiver. -/
inductive Role where
  | sender
  | receiver
deriving DecidableEq, Repr, Inhabited

/-- The 1-bit code of a role (R16). -/
def Role.bit : Role → Bool
  | .sender => false
  | .receiver => true

/-- The input ports, sampled once per tick (R40). -/
structure Ports where
  /-- synchronous reset -/
  rst : Bool
  /-- role, read only by `SYS.RESET` -/
  roleStrap : Role
  /-- current time in microseconds; the port is `TS_W` bits wide, see `State.now` -/
  now : Nat
  /-- sampled digital input level -/
  rxLevel : Level
  /-- 1 while the debounced button press is being reported -/
  trigger : Bool
  /-- payload to transmit, byte 0 first; the bytes the platform presents -/
  txPayload : List Byte
  /-- number of valid bytes of the payload -/
  txLen : Byte
deriving DecidableEq, Repr, Inhabited

/-- A frame value (42_framer.md R125): length, payload, checksum. The signature is a constant and not carried. -/
structure Frame where
  length : Byte
  payload : List Byte
  checksum : Byte
deriving DecidableEq, Repr

/-- An action of the encoder (40_encoder.md R90): invert the level now or not, then hold for a number of microseconds. -/
structure Action where
  toggle : Bool
  hold : Nat
deriving DecidableEq, Repr

/-- The operations: one constructor per row of spec/opcode_table.json, in the table's order (R77, R73). -/
inductive Instr where
  -- TICK: selected by the select word; operands are the state and the tick's inputs
  | sysReset
  | sWait
  | sTrigger
  | sTxtick
  | sTxdone
  | sCool
  | sTimeout
  | sHalt
  | decSeed
  | decCal
  | decReject
  | decBit
  | rQuiet
  | rInframe
  | rDiscard
  | rAccept
  | rRejectSig
  | rRejectTrunc
  | rRejectChk
  | rApply
  | rCrederr
  | rDone
  | rRsvd
  -- WIRE: one symbol of a transmission
  | encStart
  | encBit0
  | encBit1
  | encStop
  -- FUNC: functions and sub-operations, with their operands
  | encByte (b : Byte)
  | encFrame (bytes : List Byte)
  | txDrive
  | rxfeSample
  | decIdle
  | decReset
  | frmXor (s : List Byte)
  | frmBuild (payload : List Byte)
  | frmSerialize (f : Frame)
  | frmParse (bytes : List Byte)
  | credSplit (payload : List Byte)
  -- BYTE: one byte of a frame at its offset
  | frameSig0
  | frameSig1
  | frameSig2
  | frameSig3
  | frameLen (l : Byte)
  | framePayload (p : Byte)
  | frameChecksum (c : Byte)
deriving DecidableEq, Repr

/-- What an operation is decoded from: one constructor per format that has a bit pattern (R70). A `FUNC` operation has none. -/
inductive Code where
  /-- TICK format: the 16-bit select word (R76) -/
  | tick (sel : BitVec 16)
  /-- WIRE format: an interval of `uu` units of `T_HALF`; `first` says that it is the first interval of its
  transmission. On the wire the interval is a duration, not a bit field, so `uu` is a count (R71) -/
  | wire (first : Bool) (uu : Nat)
  /-- BYTE format: byte `b` at `offset` of a frame whose length byte reads `len` (R73) -/
  | byte (offset : Nat) (len b : Byte)
deriving DecidableEq, Repr

/-- What can be placed for the machine to read next: the inputs of a tick (a line of the stimulus script, R82), or one wire
symbol or one frame byte to be performed by itself (log 7). -/
inductive Stimulus where
  | tick (p : Ports)
  | wire (first : Bool) (uu : Nat)
  | byte (offset : Nat) (len b : Byte)
deriving DecidableEq, Repr

/-- Why a code stands for no operation; each reason is one the spec names for that encoding. -/
inductive DecodeError where
  /-- the select word matches no pattern; R84 says that this cannot happen -/
  | noPattern
  /-- a wire interval of no unit after the first: below the noise threshold, ignored (R74, R80) -/
  | notASymbol
  /-- a signature byte other than `SIG` (R73, R80) -/
  | signatureMismatch
  /-- an offset beyond the checksum: such bytes are no part of the frame (R58, R80) -/
  | pastFrame
deriving DecidableEq, Repr

end Sys2Proof
end

