-- ==== Sys2Proof/Config.lean ====
section
/-! DEFINITION. The parameters of the codec as arguments of the model, the spec's default values, the premises on them (00_scope.md R7,
R8, R9; log 5), and the free values the spec leaves to the environment or calls unspecified (log 1, log 4). -/

namespace Sys2Proof

/-- The named parameters a codec is built with (R7, R8). `N_START` is fixed (`Config.nStart`) and `BC_W` follows from `RAW_CAP`
(`Params.bcW`). -/
structure Params where
  /-- `T_HALF`: the half-period, in microseconds (R7) -/
  tHalf : Nat
  /-- `T_IDLE`: the receive-side end-of-frame threshold, in microseconds (R7) -/
  tIdle : Nat
  /-- `T_TAIL`: the send-side hold after the last bit, in microseconds (R7) -/
  tTail : Nat
  /-- `T_NOISE`: the receive-side noise-reject threshold, in microseconds (R7) -/
  tNoise : Nat
  /-- `T_S_TIMEOUT`: the sender timeout window, in microseconds (R7) -/
  tSTimeout : Nat
  /-- `T_R_TIMEOUT`: the receiver-side peer timeout, in microseconds; no operation reads it (R7, R181) -/
  tRTimeout : Nat
  /-- `MARGIN_NUM`: numerator of the calibration margin factor (R7) -/
  marginNum : Nat
  /-- `MARGIN_DEN`: denominator of the calibration margin factor (R7) -/
  marginDen : Nat
  /-- `MIN_BYTES`: least number of closed bytes for a session to reach the framer (R7) -/
  minBytes : Nat
  /-- `SIG[0]` (R7) -/
  sig0 : Byte
  /-- `SIG[1]` (R7) -/
  sig1 : Byte
  /-- `SIG[2]` (R7) -/
  sig2 : Byte
  /-- `SIG[3]` (R7) -/
  sig3 : Byte
  /-- `COLON`: the byte that separates SSID and password (R7) -/
  colon : Byte
  /-- `TS_W`: width in bits of `now` and of every stored timestamp and duration (R8) -/
  tsW : Nat
  /-- `RAW_CAP`: capacity of `raw_bytes` and `tx_frame` (R8, R50) -/
  rawCap : Nat
  /-- `PAY_CAP`: capacity of every payload buffer (R8, R50) -/
  payCap : Nat
  /-- `IDLE_LEVEL`: the line level when nothing is transmitted (R8) -/
  idleLevel : Level
deriving DecidableEq, Repr

/-- The defaults of R7 and R8. -/
def Params.default : Params :=
  { tHalf := 2000, tIdle := 40000, tTail := 40000, tNoise := 1500, tSTimeout := 5000000, tRTimeout := 10000000,
    marginNum := 9, marginDen := 10, minBytes := 4,
    sig0 := 0x63#8, sig1 := 0xF9#8, sig2 := 0x5C#8, sig3 := 0x1B#8, colon := 0x3A#8,
    tsW := 32, rawCap := 261, payCap := 255, idleLevel := false }

/-- `N_START`: number of start pulses before the first byte; fixed (R7, C3). -/
def Config.nStart : Nat := 1

/-- The signature as a byte sequence (R7, R125). -/
def Params.sig (P : Params) : List Byte := [P.sig0, P.sig1, P.sig2, P.sig3]

/-- `BC_W`: the least width that holds `8*RAW_CAP` (R8). -/
def Params.bcW (P : Params) : Nat := Nat.log2 (8 * P.rawCap) + 1

/-- A number as an unsigned `TS_W`-bit value (R6, R11). -/
def Params.stamp (P : Params) (x : Nat) : Nat := x % 2 ^ P.tsW

/-- `Scale(T_HALF)` before any width: the period that a noise-free calibration learns (R9). -/
def Params.scaledHalf (P : Params) : Nat := P.marginNum * P.tHalf / P.marginDen

/-- The premises the spec puts on its parameters (R9), in its order. -/
def Params.premises (P : Params) : Bool :=
  decide (P.tNoise < P.scaledHalf) && decide (P.tNoise ≤ P.tHalf) &&
  decide (3 * P.scaledHalf ≤ 2 * (2 * P.tHalf)) && decide (2 * P.tHalf < 3 * P.scaledHalf) &&
  decide (2 * P.tHalf < P.tIdle) && decide (P.tIdle ≤ P.tTail) && decide (P.tRTimeout < 2 ^ P.tsW)

/-- What the parameters' meanings imply beside R9 (DEDUCED, log 5): the buffers hold every legal frame and payload (R8), the margin is
below one (R11 item 2), the durations are `TS_W`-bit values (R8, R11 item 4), and the shortest frame reaches the framer (R7, R128). -/
def Params.fits (P : Params) : Bool :=
  decide (255 ≤ P.payCap) && decide (261 ≤ P.rawCap) && decide (P.marginNum < P.marginDen) &&
  decide (P.tTail < 2 ^ P.tsW) && decide (P.tSTimeout < 2 ^ P.tsW) && decide (P.minBytes ≤ 6)

/-- The five private byte buffers (20_memory.md R50). -/
inductive BufferName where
  | rawBytes
  | framePayload
  | txFrame
  | ssid
  | password
deriving DecidableEq, Repr

/-- The capacity of a buffer in cells (R50). -/
def BufferName.capacity (P : Params) : BufferName → Nat
  | .rawBytes => P.rawCap
  | .framePayload => P.payCap
  | .txFrame => P.rawCap
  | .ssid => P.payCap
  | .password => P.payCap

/-- FREE VALUE. The inputs the environment presents at a tick for which no stimulus is placed (R5, R40; log 1). Nothing
constrains it, not even that `now` does not decrease. -/
opaque Config.environment : Nat → Ports

/-- FREE VALUE. The content of a buffer cell that nothing has written: "any value" (93 U4, R41, R55; log 4). -/
opaque Config.unspecifiedCell : BufferName → Nat → Byte

/-- FREE VALUE. A byte of `tx_payload` below `tx_len` that the platform did not present (R201, U12; log 4). -/
opaque Config.unspecifiedPayload : Nat → Byte

end Sys2Proof
end

