-- ==== Sys2Proof/Machine/State.lean ====
section
/-! DEFINITION. The state of the codec as plain data (10_state.md R15 to R34), the outcome codes (60_exceptions.md R166), the
reasons a step can stop, and the state after reset (R41). -/

namespace Sys2Proof.Machine

/-- The codes of the 3-bit register `outcome` (R166). -/
inductive OutcomeCode where
  | none
  | frameOk
  | signatureMismatch
  | checksumMismatch
  | truncated
  | noiseOnlySession
  | credentialFormatError
  | senderTimeout
deriving DecidableEq, Repr

/-- The error kinds of the framer (42_framer.md R129). -/
inductive FrameError where
  | signatureMismatch
  | truncated
  | checksumMismatch
deriving DecidableEq, Repr

/-- The error kinds that are raised (R165, R170). -/
inductive ErrorKind where
  | signatureMismatch
  | checksumMismatch
  | truncated
  | noiseOnlySession
  | credentialFormatError
deriving DecidableEq, Repr

/-- The result of `FRM.PARSE` (R129). -/
inductive ParseResult where
  | ok (f : Frame)
  | err (k : FrameError)
deriving DecidableEq, Repr

/-- The result of `CRED.SPLIT` (R131); its one error is `CredentialFormatError`. -/
inductive SplitResult where
  | ok (ssid password : List Byte)
  | err
deriving DecidableEq, Repr

/-- The registers of a decoder session (R18 to R25); the closed bytes are in `Memory.rawBytes`. -/
structure Session where
  /-- `seeded` (R24) -/
  seeded : Bool
  /-- `calibrating` (R25) -/
  calibrating : Bool
  /-- `nominal_period` (R18) -/
  nominalPeriod : Nat
  /-- `last_edge_time` (R19) -/
  lastEdgeTime : Nat
  /-- `last_level` (R20) -/
  lastLevel : Level
  /-- `bit_count`, `BC_W` bits (R21; log 20) -/
  bitCount : Nat
  /-- `shift` (R22) -/
  shift : Byte
deriving DecidableEq, Repr

/-- The receive front end (R26, R27). -/
structure FrontEnd where
  /-- `prev_sample` (R26) -/
  prevSample : Level
  /-- `last_change_time` (R27) -/
  lastChangeTime : Nat
deriving DecidableEq, Repr

/-- The frame register without its payload cells (R28). -/
structure FrameReg where
  /-- `frame_valid` -/
  valid : Bool
  /-- `frame_len` -/
  len : Byte
  /-- `frame_checksum` -/
  checksum : Byte
deriving DecidableEq, Repr

/-- The transmit registers without the frame cells (R29 to R31). -/
structure TxReg where
  /-- `tx_frame_len` (R29) -/
  frameLen : BitVec 9
  /-- `tx_start_time` (R30) -/
  startTime : Nat
  /-- `tx_level` (R31) -/
  level : Level
deriving DecidableEq, Repr

/-- The credential registers without their cells (R32). -/
structure CredReg where
  /-- `cred_valid` -/
  valid : Bool
  /-- `ssid_len` -/
  ssidLen : Byte
  /-- `password_len` -/
  passwordLen : Byte
deriving DecidableEq, Repr

/-- The five byte buffers (20_memory.md R50), each a list of the cells that have been written, indices strictly rising (log 4). -/
structure Memory where
  rawBytes : List Host.Cell
  framePayload : List Host.Cell
  txFrame : List Host.Cell
  ssid : List Host.Cell
  password : List Host.Cell
deriving DecidableEq, Repr

/-- What a directly performed FUNC, WIRE or BYTE operation returned (log 6). The model's own, not the spec's. -/
inductive FuncResult where
  /-- no such operation has been performed -/
  | nothing
  /-- the action list of an encoder operation (R90) -/
  | actions (as : List Action)
  /-- a checksum (R126) -/
  | byte (b : Byte)
  /-- a frame value (R127) -/
  | frame (f : Frame)
  /-- a byte sequence (R128) -/
  | bytes (bs : List Byte)
  /-- the result of `FRM.PARSE` (R129) -/
  | parsed (r : ParseResult)
  /-- the result of `CRED.SPLIT` (R131) -/
  | split (r : SplitResult)
  /-- the signals of the front end (R105): the two SEL bits, then the two events given to the decoder -/
  | sampled (edge idleExpired edgeEvent idleEvent : Bool)
  /-- a frame byte and the actions it is sent with (R73, R94) -/
  | sent (b : Byte) (as : List Action)
  /-- a placed code that stands for no operation (R74, R80; log 13) -/
  | rejected (e : DecodeError)
deriving DecidableEq, Repr

/-- The state of the machine. `params` is the argument the machine is built with, which no operation writes (R7, R8, R43; log 5). The nine
fields after it are the spec's (R15); the last five are the model's own (log 1, 2, 6, 12, 14). -/
structure State where
  /-- the parameters the machine is built with (R7, R8; log 5) -/
  params : Params
  /-- `role` (R16) -/
  role : Role
  /-- `st`, the role state register (R17) -/
  st : BitVec 2
  /-- the decoder session (R18 to R25) -/
  session : Session
  /-- the receive front end (R26, R27) -/
  frontEnd : FrontEnd
  /-- the received frame (R28) -/
  frame : FrameReg
  /-- the transmit registers (R29 to R31) -/
  tx : TxReg
  /-- the credential registers (R32) -/
  cred : CredReg
  /-- `outcome` (R33) -/
  outcome : OutcomeCode
  /-- the byte buffers (R50) -/
  mem : Memory
  /-- the output `outcome_strobe` of the last tick (R34; log 12) -/
  outcomeStrobe : Bool
  /-- the values on the input ports at the tick (R40; log 14) -/
  ports : Ports
  /-- what is placed for the machine to read next (R82; log 2) -/
  stimuli : List Stimulus
  /-- how many ticks took their inputs from `Config.environment` (log 1) -/
  draws : Nat
  /-- what the last directly performed function returned (log 6) -/
  result : FuncResult
deriving DecidableEq, Repr

/-- Why a meaning ends in a fault. -/
inductive Fault where
  /-- Raised by `R.ACCEPT` performed by itself in a state whose session bytes parse to no frame: its operand `Ok(f)` does not exist
  (R153). SAFE: no tick selects it there (log 10). -/
  | noFrameToAccept
  /-- Raised by `R.APPLY` performed by itself in a state whose frame payload has no colon: its operand `Ok(s, p)` does not exist
  (R157). SAFE: no tick selects it there (log 10). -/
  | noColonToApply
deriving DecidableEq, Repr

/-- Why an operation is refused. -/
inductive Refusal where
  /-- Raised by `exec` for an operation that has no meaning yet, named by its mnemonic. SAFE: the machine stops. -/
  | notModelled (mnemonic : String)
deriving DecidableEq, Repr

/-- The reset values of the session (R41, R115). -/
def Session.empty (P : Params) : Session :=
  { seeded := false, calibrating := true, nominalPeriod := 0, lastEdgeTime := 0,
    lastLevel := P.idleLevel, bitCount := 0, shift := 0#8 }

/-- Input ports with every signal 0 and no payload (log 14). -/
def quietPorts : Ports :=
  { rst := false, roleStrap := .sender, now := 0, rxLevel := false, trigger := false, txPayload := [], txLen := 0#8 }

/-- The machine with parameters `P` right after a reset with the given strap (R41). No buffer cell is listed: the cells are unspecified (log 4). -/
def State.resetAs (P : Params) (strap : Role) : State :=
  { params := P
    role := strap
    st := 0#2
    session := Session.empty P
    frontEnd := { prevSample := P.idleLevel, lastChangeTime := 0 }
    frame := { valid := false, len := 0#8, checksum := 0#8 }
    tx := { frameLen := 0#9, startTime := 0, level := P.idleLevel }
    cred := { valid := false, ssidLen := 0#8, passwordLen := 0#8 }
    outcome := .none
    mem := { rawBytes := [], framePayload := [], txFrame := [], ssid := [], password := [] }
    outcomeStrobe := false
    ports := quietPorts
    stimuli := []
    draws := 0
    result := .nothing }

/-- The machine at the default parameters right after reset. `role` is the value of `role_strap` at the reset tick (R41), an input; the model names SENDER,
code 0 (DESIGN CHOICE, log 3). -/
def State.reset : State := State.resetAs Params.default .sender

end Sys2Proof.Machine
end

