-- ==== Sys2Proof/Machine/Ops.lean ====
section
/-! DEFINITION. The named operations that the meanings share: buffer cells (20_memory.md), the arithmetic laws (00_scope.md R11),
the decoder's session updates (41_decoder.md R107 to R115), and raising an error kind (60_exceptions.md R170). -/

namespace Sys2Proof.Machine

/-! ### Buffer cells -/

/-- The byte listed at an index; `none` where nothing has been written. -/
def Cells.lookup : List Host.Cell → Nat → Option Byte
  | [], _ => none
  | (a, b) :: rest, i => if a = i then some b else Cells.lookup rest i

/-- Write one cell, keeping the indices strictly rising (`MemWrite`, R13). -/
def Cells.write : List Host.Cell → Nat → Byte → List Host.Cell
  | [], i, v => [(i, v)]
  | (a, b) :: rest, i, v =>
    if i < a then (i, v) :: (a, b) :: rest
    else if i = a then (i, v) :: rest
    else (a, b) :: Cells.write rest i v

/-- Write consecutive cells from an index up: a block copy, within one tick (R56). -/
def Cells.writeBlock : List Host.Cell → Nat → List Byte → List Host.Cell
  | cs, _, [] => cs
  | cs, i, v :: vs => Cells.writeBlock (Cells.write cs i v) (i + 1) vs

/-- The canonical form of a buffer: indices strictly rising. No entry can equal what an unlisted index holds, which is no value. -/
def Cells.wf : List Host.Cell → Bool
  | [] => true
  | [_] => true
  | (a, _) :: (a', b') :: rest => decide (a < a') && Cells.wf ((a', b') :: rest)

/-- The content of a cell: what is listed, else a free value (R55, U4; log 4). -/
def Cells.read (name : BufferName) (cs : List Host.Cell) (i : Nat) : Byte :=
  match Cells.lookup cs i with
  | some b => b
  | none => Config.unspecifiedCell name i

/-- `MemRead(buf, i, n)`: the `n` bytes from index `i` (R13). -/
def Cells.memRead (name : BufferName) (cs : List Host.Cell) : Nat → Nat → List Byte
  | _, 0 => []
  | i, n + 1 => Cells.read name cs i :: Cells.memRead name cs (i + 1) n

/-- The cells of a named buffer. -/
def Memory.cells (m : Memory) : BufferName → List Host.Cell
  | .rawBytes => m.rawBytes
  | .framePayload => m.framePayload
  | .txFrame => m.txFrame
  | .ssid => m.ssid
  | .password => m.password

/-- The memory with the cells of one buffer replaced. -/
def Memory.setCells (m : Memory) (name : BufferName) (cs : List Host.Cell) : Memory :=
  match name with
  | .rawBytes => { m with rawBytes := cs }
  | .framePayload => { m with framePayload := cs }
  | .txFrame => { m with txFrame := cs }
  | .ssid => { m with ssid := cs }
  | .password => { m with password := cs }

/-- Every buffer is in canonical form. -/
def Memory.wf (m : Memory) : Bool :=
  Cells.wf m.rawBytes && Cells.wf m.framePayload && Cells.wf m.txFrame && Cells.wf m.ssid && Cells.wf m.password

/-- One byte of a buffer, as every operation reads it. -/
def Memory.readByte (m : Memory) (name : BufferName) (i : Nat) : Byte := Cells.read name (m.cells name) i

/-- `MemRead` of a named buffer (R13). -/
def Memory.memRead (m : Memory) (name : BufferName) (i n : Nat) : List Byte := Cells.memRead name (m.cells name) i n

/-- `MemWrite` of a named buffer (R13). -/
def Memory.memWrite (m : Memory) (name : BufferName) (i : Nat) (v : Byte) : Memory :=
  m.setCells name (Cells.write (m.cells name) i v)

/-- A block copy into a named buffer from index 0 (R56). -/
def Memory.copyIn (m : Memory) (name : BufferName) (vs : List Byte) : Memory :=
  m.setCells name (Cells.writeBlock (m.cells name) 0 vs)

/-! ### Arithmetic (R11) -/

/-- `Elapsed(a, b) = (a - b) mod 2^TS_W` (R11 item 1). -/
def elapsed (P : Params) (a b : Nat) : Nat := P.stamp (a + (2 ^ P.tsW - P.stamp b))

/-- `Scale(d) = floor(MARGIN_NUM * d / MARGIN_DEN)` (R11 item 2); computed exactly, then put back into `TS_W` bits. -/
def scale (P : Params) (d : Nat) : Nat := P.stamp (P.marginNum * d / P.marginDen)

/-- `IsLong(d, p) = (2*d >= 3*p)`, without overflow (R11 item 3). -/
def isLong (d p : Nat) : Bool := decide (3 * p ≤ 2 * d)

/-- `MinUpdate(p, d) = d if d < p else p` (R112). -/
def minUpdate (p d : Nat) : Nat := if d < p then d else p

/-- `Classify(d, p)`: the bit an accepted delta decodes to (R111). -/
def classify (d p : Nat) : Bool := isLong d p

/-- `Xor` of a byte sequence (R11 item 5, R126). -/
def xorBytes (s : List Byte) : Byte := s.foldl (fun acc b => acc ^^^ b) 0#8

/-! ### Outcome codes -/

/-- The 3-bit code of an outcome (R166). -/
def OutcomeCode.bits : OutcomeCode → BitVec 3
  | .none => 0#3
  | .frameOk => 1#3
  | .signatureMismatch => 2#3
  | .checksumMismatch => 3#3
  | .truncated => 4#3
  | .noiseOnlySession => 5#3
  | .credentialFormatError => 6#3
  | .senderTimeout => 7#3

/-- The outcome that an error kind is recorded as (R166). -/
def ErrorKind.code : ErrorKind → OutcomeCode
  | .signatureMismatch => .signatureMismatch
  | .checksumMismatch => .checksumMismatch
  | .truncated => .truncated
  | .noiseOnlySession => .noiseOnlySession
  | .credentialFormatError => .credentialFormatError

/-- A framer error as an error kind (R129, R167 to R169). -/
def FrameError.kind : FrameError → ErrorKind
  | .signatureMismatch => .signatureMismatch
  | .truncated => .truncated
  | .checksumMismatch => .checksumMismatch

/-! ### The role state codes (R17) -/

/-- `S_IDLE`. -/
def sIdle : BitVec 2 := 0#2
/-- `S_TRANSMITTING`. -/
def sTransmitting : BitVec 2 := 1#2
/-- `S_COOLDOWN`. -/
def sCooldown : BitVec 2 := 2#2
/-- `S_LISTENING`, terminal. -/
def sListening : BitVec 2 := 3#2
/-- `R_LISTENING`. -/
def rListening : BitVec 2 := 0#2
/-- `R_APPLY`. -/
def rApplying : BitVec 2 := 1#2
/-- `R_DONE`, terminal. -/
def rFinished : BitVec 2 := 2#2
/-- The reserved receiver code, terminal (R160). -/
def rReserved : BitVec 2 := 3#2

/-! ### The decoder's session updates -/

/-- `byte_count = bit_count div 8` (R21). -/
def Session.byteCount (x : Session) : Nat := x.bitCount / 8

/-- `bit_pos = bit_count mod 8` (R21). -/
def Session.bitPos (x : Session) : Nat := x.bitCount % 8

/-- The `DEC.SEED` update (R107). -/
def Session.seedWith (x : Session) (t : Nat) (lvl : Level) : Session :=
  { x with seeded := true, lastEdgeTime := t, lastLevel := lvl }

/-- The `DEC.CAL` update, with `d` the delta of the edge (R108). -/
def Session.calibrateWith (P : Params) (x : Session) (d t : Nat) (lvl : Level) : Session :=
  { x with nominalPeriod := scale P d, calibrating := false, lastEdgeTime := t, lastLevel := lvl }

/-- The byte assembler's new shift value before it is closed: `{shift[6:0], v}` (R113). -/
def Session.shiftIn (x : Session) (v : Bool) : Byte := BitVec.concat (x.shift.setWidth 7) v

/-- `Accumulate(v)` on the session registers (R113). -/
def Session.accumulate (P : Params) (x : Session) (v : Bool) : Session :=
  if x.bitCount < 8 * P.rawCap then
    { x with shift := if x.bitPos = 7 then 0#8 else x.shiftIn v, bitCount := x.bitCount + 1 }
  else x

/-- `Accumulate(v)` on the cells of `raw_bytes`: the eighth bit writes the closed byte (R113). -/
def Session.accumulateCells (P : Params) (x : Session) (cells : List Host.Cell) (v : Bool) : List Host.Cell :=
  if x.bitCount < 8 * P.rawCap ∧ x.bitPos = 7 then Cells.write cells x.byteCount (x.shiftIn v) else cells

/-- The bit that an accepted delta gives: the minimum update comes first (R110). -/
def Session.bitOf (x : Session) (d : Nat) : Bool := classify d (minUpdate x.nominalPeriod d)

/-- The `DEC.BIT` update of the session registers (R110). -/
def Session.bitWith (P : Params) (x : Session) (d t : Nat) (lvl : Level) : Session :=
  { x.accumulate P (x.bitOf d) with
    nominalPeriod := minUpdate x.nominalPeriod d, lastEdgeTime := t, lastLevel := lvl }

/-- The end-of-frame gate (R114). -/
def Session.gateOk (P : Params) (x : Session) : Bool :=
  decide (P.minBytes ≤ x.byteCount) && decide (P.tNoise < x.nominalPeriod)

/-- `DEC.RESET` (R115). No cell is written. -/
def State.sessionReset (s : State) : State := { s with session := Session.empty s.params }

/-- The `TS_W`-bit value on the port `now` at this tick (R6, R40). -/
def State.now (s : State) : Nat := s.params.stamp s.ports.now

/-- Seed the session with this tick's edge (R107). -/
def State.seedNow (s : State) : State :=
  { s with session := s.session.seedWith s.now s.ports.rxLevel }

/-! ### Raising an error kind

There is no trap, no saved state, no vector and no return operation: recovery is complete in the raising tick (R170, R178). -/

/-- Write `outcome` and the strobe of this tick (R33, R34). -/
def State.report (s : State) (c : OutcomeCode) : State := { s with outcome := c, outcomeStrobe := true }

/-- `raise <Kind>` (R170): record the outcome, reset the session, listen again. -/
def State.raise (s : State) (k : ErrorKind) : State :=
  { (s.report k.code).sessionReset with st := rListening }

end Sys2Proof.Machine
end

