-- ==== Sys2Proof/WellFormed.lean ====
section
/-! DEFINITION. Which operations, codes and inputs are well formed: the operand ranges the spec gives each function
(40_encoder.md R96; 42_framer.md R125 to R131), the offsets of a frame (R58) and the ports (10_state.md R40). -/

namespace Sys2Proof

/-- A frame value is well formed when its length byte is the length of its payload (R125). -/
def Frame.wf (f : Frame) : Bool := decide (f.payload.length = f.length.toNat)

/-- The operand ranges of the operations, for a machine with parameters `P`; an operation without a stated range, or without operands, is always well formed. -/
def Instr.wf (P : Params) : Instr → Bool
  | .encFrame bytes => decide (6 ≤ bytes.length) && decide (bytes.length ≤ P.rawCap)
  | .frmXor s => decide (s.length ≤ P.payCap)
  | .frmBuild payload => decide (payload.length ≤ P.payCap)
  | .frmSerialize f => f.wf
  | .frmParse bytes => decide (bytes.length ≤ P.rawCap)
  | .credSplit payload => decide (payload.length ≤ P.payCap)
  | .sysReset | .sWait | .sTrigger | .sTxtick | .sTxdone | .sCool | .sTimeout | .sHalt
  | .decSeed | .decCal | .decReject | .decBit
  | .rQuiet | .rInframe | .rDiscard | .rAccept | .rRejectSig | .rRejectTrunc | .rRejectChk
  | .rApply | .rCrederr | .rDone | .rRsvd
  | .encStart | .encBit0 | .encBit1 | .encStop
  | .encByte _ | .txDrive | .rxfeSample | .decIdle | .decReset
  | .frameSig0 | .frameSig1 | .frameSig2 | .frameSig3
  | .frameLen _ | .framePayload _ | .frameChecksum _ => true

/-- The inputs of a tick are well formed when `now` and the payload fit their ports and every byte below `tx_len` is presented (R40,
R192). -/
def Ports.wf (P : Params) (p : Ports) : Bool :=
  decide (p.now < 2 ^ P.tsW) && decide (p.txPayload.length ≤ P.payCap) && decide (p.txLen.toNat ≤ p.txPayload.length)

/-- A code is well formed when a frame byte stands inside its frame of `len + 6` bytes (R58); every select word and every
interval is well formed. -/
def Code.wf : Code → Bool
  | .tick _ => true
  | .wire _ _ => true
  | .byte offset len _ => decide (offset < len.toNat + 6)

end Sys2Proof
end

