-- ==== Sys2Proof/Machine/Framing.lean ====
section
/-! DEFINITION. The packet framer and the credential splitter as pure functions (42_framer.md R125 to R131). -/

namespace Sys2Proof.Machine

/-- A frame is valid when its length is its payload's and its checksum the payload's exclusive-or (R125). -/
def frameValid (f : Frame) : Bool := f.wf && decide (f.checksum = xorBytes f.payload)

/-- `FRM.BUILD(payload)` (R127). -/
def buildFrame (payload : List Byte) : Frame :=
  { length := BitVec.ofNat 8 payload.length, payload := payload, checksum := xorBytes payload }

/-- `FRM.SERIALIZE(f)` (R128). -/
def serialize (P : Params) (f : Frame) : List Byte := P.sig ++ [f.length] ++ f.payload ++ [f.checksum]

/-- `MemRead` of a byte sequence that is not a buffer (R13). -/
def slice (bytes : List Byte) (i n : Nat) : List Byte := (bytes.drop i).take n

/-- The declared length: the byte at offset 4, unsigned, not scaled (R75). -/
def declaredLength (bytes : List Byte) : Nat := (bytes.getD 4 0#8).toNat

/-- The frame that the fields of a long enough byte sequence describe (R58). -/
def frameIn (bytes : List Byte) : Frame :=
  { length := bytes.getD 4 0#8
    payload := slice bytes 5 (declaredLength bytes)
    checksum := bytes.getD (5 + declaredLength bytes) 0#8 }

/-- `FRM.PARSE(bytes)`: the tests in order, the first that fails decides (R129). The `getD` reads of `frameIn` and
`declaredLength` are reached only below the length of the sequence. -/
def parseFrame (P : Params) (bytes : List Byte) : ParseResult :=
  if bytes.length < 4 then .err .truncated
  else if slice bytes 0 4 ≠ P.sig then .err .signatureMismatch
  else if bytes.length < 5 then .err .truncated
  else if bytes.length < declaredLength bytes + 6 then .err .truncated
  else if xorBytes (frameIn bytes).payload ≠ (frameIn bytes).checksum then .err .checksumMismatch
  else .ok (frameIn bytes)

/-- The 2-bit code of a parse result in the select word (R76). -/
def ParseResult.bits : ParseResult → BitVec 2
  | .ok _ => 0b00#2
  | .err .signatureMismatch => 0b01#2
  | .err .truncated => 0b10#2
  | .err .checksumMismatch => 0b11#2

/-- The least index of the colon byte, if there is one (R131). -/
def colonIndex (P : Params) : List Byte → Option Nat
  | [] => none
  | b :: rest =>
    if b = P.colon then some 0
    else
      match colonIndex P rest with
      | some k => some (k + 1)
      | none => none

/-- `CRED.SPLIT(payload)`: split on the first colon (R131). -/
def splitCredentials (P : Params) (payload : List Byte) : SplitResult :=
  match colonIndex P payload with
  | none => .err
  | some k => .ok (payload.take k) (payload.drop (k + 1))

end Sys2Proof.Machine
end

