-- ==== Sys2Proof/Machine/Waveform.lean ====
section
/-! DEFINITION. The encoder as pure functions: actions, segments, totals and levels of a waveform (40_encoder.md R90 to R99). -/

namespace Sys2Proof.Machine

/-- `ENC.START()` (R91). -/
def startActions (P : Params) : List Action := [⟨true, P.tHalf⟩]

/-- `ENC.BIT0()` (R92). -/
def bit0Actions (P : Params) : List Action := [⟨true, P.tHalf⟩]

/-- `ENC.BIT1()` (R93). -/
def bit1Actions (P : Params) : List Action := [⟨true, P.tHalf⟩, ⟨false, P.tHalf⟩]

/-- `ENC.STOP()` (R95). -/
def stopActions (P : Params) : List Action := [⟨true, P.tTail⟩]

/-- `ENC.BIT(v)` (R94). -/
def bitActions (P : Params) (v : Bool) : List Action := if v then bit1Actions P else bit0Actions P

/-- The bits of a byte in wire order, `b[7]` first (R51). -/
def bitsOf (b : Byte) : List Bool :=
  [b.getLsbD 7, b.getLsbD 6, b.getLsbD 5, b.getLsbD 4, b.getLsbD 3, b.getLsbD 2, b.getLsbD 1, b.getLsbD 0]

/-- The bits of a byte sequence in wire order (R66, R72). -/
def wireBits (bytes : List Byte) : List Bool := bytes.flatMap bitsOf

/-- `ENC.BYTE(b)` (R94). -/
def byteActions (P : Params) (b : Byte) : List Action := (bitsOf b).flatMap (bitActions P)

/-- `ENC.FRAME(bytes)`: `N_START` = 1 start pulse, the bytes, the stop symbol (R96). -/
def frameActions (P : Params) (bytes : List Byte) : List Action :=
  startActions P ++ bytes.flatMap (byteActions P) ++ stopActions P

/-- One segment of a waveform: a level held for a number of microseconds (R97). -/
structure Segment where
  level : Level
  dur : Nat
deriving DecidableEq, Repr

/-- Interpret actions from a line level (R97). The first component is the hold that belongs to the segment already open. -/
def interpret : Level → List Action → Nat × List Segment
  | _, [] => (0, [])
  | lvl, a :: rest =>
    if a.toggle then
      let r := interpret (!lvl) rest
      (0, ⟨!lvl, a.hold + r.1⟩ :: r.2)
    else
      let r := interpret lvl rest
      (a.hold + r.1, r.2)

/-- The segments of an action list interpreted from `IDLE_LEVEL` (R97; log 17). -/
def segmentsOf (P : Params) (as : List Action) : List Segment := (interpret P.idleLevel as).2

/-- `Segments(bytes)`: the segments of the whole transmission (R97). -/
def segments (P : Params) (bytes : List Byte) : List Segment := segmentsOf P (frameActions P bytes)

/-- The sum of the durations of segments. -/
def duration : List Segment → Nat
  | [] => 0
  | g :: rest => g.dur + duration rest

/-- `popcount` of a byte sequence: the number of its one-bits (R97). -/
def popcount (bytes : List Byte) : Nat := (wireBits bytes).countP (fun v => v)

/-- `Total(bytes) = T_HALF * (1 + n + popcount(bytes)) + T_TAIL` with `n = 8 * len(bytes)` (R97). -/
def total (P : Params) (bytes : List Byte) : Nat :=
  P.tHalf * (Config.nStart + 8 * bytes.length + popcount bytes) + P.tTail

/-- The level of a list of segments at an offset; `IDLE_LEVEL` from its end on (R97). -/
def levelIn (P : Params) : List Segment → Nat → Level
  | [], _ => P.idleLevel
  | g :: rest, e => if e < g.dur then g.level else levelIn P rest (e - g.dur)

/-- `LevelAt(bytes, e)` (R97). -/
def levelAt (P : Params) (bytes : List Byte) (e : Nat) : Level := levelIn P (segments P bytes) e

/-- The edges of segments, the first at time `t`: the `TS_W`-bit time of each segment's start and its level (R83 `WAVE`, R97). -/
def edgesFrom (P : Params) (t : Nat) : List Segment → List (Nat × Level)
  | [] => []
  | g :: rest => (P.stamp t, g.level) :: edgesFrom P (t + g.dur) rest

end Sys2Proof.Machine
end

