-- ==== Sys2Proof/Machine/Operands.lean ====
section
/-! DEFINITION. The operands of the operations, as read from a state: the delta of an edge (30_encoding.md R74, 41_decoder.md R106),
elapsed times (60_exceptions.md R181), the valid bytes of the buffers (20_memory.md R50, R66) and the transmit payload. -/

namespace Sys2Proof.Machine

/-- The delta of an edge at this tick: `Elapsed(now, last_edge_time)` (R106). -/
def State.delta (s : State) : Nat := elapsed s.params s.now s.session.lastEdgeTime

/-- The time since the last raw level change: `Elapsed(now, last_change_time)` (R105). -/
def State.quietTime (s : State) : Nat := elapsed s.params s.now s.frontEnd.lastChangeTime

/-- The position in the transmission: `Elapsed(now, tx_start_time)` (R30, R98). -/
def State.txElapsed (s : State) : Nat := elapsed s.params s.now s.tx.startTime

/-- `raw_bytes[0..byte_count-1]`: the closed bytes of the session (R23). -/
def State.closedBytes (s : State) : List Byte := s.mem.memRead .rawBytes 0 s.session.byteCount

/-- `frame_payload[0..frame_len-1]` (R28). -/
def State.framePayloadBytes (s : State) : List Byte := s.mem.memRead .framePayload 0 s.frame.len.toNat

/-- `tx_frame[0..tx_frame_len-1]` (R29). -/
def State.txFrameBytes (s : State) : List Byte := s.mem.memRead .txFrame 0 s.tx.frameLen.toNat

/-- `ssid[0..ssid_len-1]` (R32). -/
def State.ssidBytes (s : State) : List Byte := s.mem.memRead .ssid 0 s.cred.ssidLen.toNat

/-- `password[0..password_len-1]` (R32). -/
def State.passwordBytes (s : State) : List Byte := s.mem.memRead .password 0 s.cred.passwordLen.toNat

/-- The byte of `tx_payload` at an index; a free value where the platform presents none (R201, U12; log 4). -/
def payloadByte : List Byte → Nat → Nat → Byte
  | [], i, _ => Config.unspecifiedPayload i
  | b :: _, _, 0 => b
  | _ :: rest, i, k + 1 => payloadByte rest i k

/-- `n` bytes of `tx_payload` from index `i`. -/
def payloadFrom (bytes : List Byte) : Nat → Nat → List Byte
  | _, 0 => []
  | i, n + 1 => payloadByte bytes i i :: payloadFrom bytes (i + 1) n

/-- `tx_payload[0..tx_len-1]` (R143). -/
def payloadOf (p : Ports) : List Byte := payloadFrom p.txPayload 0 p.txLen.toNat

/-- The result of `FRM.PARSE` on the session's closed bytes (R114, R129). -/
def State.parsed (s : State) : ParseResult := parseFrame s.params s.closedBytes

/-- The result of `CRED.SPLIT` on the received payload (R131, R157). -/
def State.splitPayload (s : State) : SplitResult := splitCredentials s.params s.framePayloadBytes

end Sys2Proof.Machine
end

