-- ==== Sys2Proof/Machine/Encoder.lean ====
section
/-! DEFINITION. The encoder family (40_encoder.md): the wire symbols, `ENC.BYTE`, `ENC.FRAME` and `TX.DRIVE`. The encoder holds no
state and writes no flag (R90); what an operation returns is put into `State.result` (log 6). -/

namespace Sys2Proof.Machine

/-- Hand a function's value to its caller (log 6). -/
def State.returning (s : State) (r : FuncResult) : State := { s with result := r }

/-- `ENC.START` (R91). -/
def execEncStart (s : State) : Host.Outcome State Fault Refusal := .next (s.returning (.actions (startActions s.params)))

/-- `ENC.BIT0` (R92). -/
def execEncBit0 (s : State) : Host.Outcome State Fault Refusal := .next (s.returning (.actions (bit0Actions s.params)))

/-- `ENC.BIT1` (R93). -/
def execEncBit1 (s : State) : Host.Outcome State Fault Refusal := .next (s.returning (.actions (bit1Actions s.params)))

/-- `ENC.STOP` (R95). -/
def execEncStop (s : State) : Host.Outcome State Fault Refusal := .next (s.returning (.actions (stopActions s.params)))

/-- `ENC.BYTE` (R94). -/
def execEncByte (b : Byte) (s : State) : Host.Outcome State Fault Refusal := .next (s.returning (.actions (byteActions s.params b)))

/-- `ENC.FRAME` (R96). -/
def execEncFrame (bytes : List Byte) (s : State) : Host.Outcome State Fault Refusal :=
  .next (s.returning (.actions (frameActions s.params bytes)))

/-- The output line driven to the waveform's level at this tick (R98). -/
def State.driveLine (s : State) : State :=
  { s with tx := { s.tx with level := levelAt s.params s.txFrameBytes s.txElapsed } }

/-- `TX.DRIVE` (R98). -/
def execTxDrive (s : State) : Host.Outcome State Fault Refusal := .next s.driveLine

end Sys2Proof.Machine
end

