-- ==== Sys2Proof/Machine/FrameBytes.lean ====
section
/-! DEFINITION. The BYTE format (30_encoding.md R73): a byte of a frame, at its offset, is passed individually to the encoder and sent
most significant bit first (20_memory.md R51, R52). The byte and its actions are put into `State.result` (log 6, log 15). -/

namespace Sys2Proof.Machine

/-- Pass one byte to the encoder (R52, R94). -/
def State.sendByte (s : State) (b : Byte) : State := s.returning (.sent b (byteActions s.params b))

/-- `FRAME.SIG0`, offset 0 (R73). -/
def execFrameSig0 (s : State) : Host.Outcome State Fault Refusal := .next (s.sendByte s.params.sig0)

/-- `FRAME.SIG1`, offset 1 (R73). -/
def execFrameSig1 (s : State) : Host.Outcome State Fault Refusal := .next (s.sendByte s.params.sig1)

/-- `FRAME.SIG2`, offset 2 (R73). -/
def execFrameSig2 (s : State) : Host.Outcome State Fault Refusal := .next (s.sendByte s.params.sig2)

/-- `FRAME.SIG3`, offset 3 (R73). -/
def execFrameSig3 (s : State) : Host.Outcome State Fault Refusal := .next (s.sendByte s.params.sig3)

/-- `FRAME.LEN`, offset 4 (R73). -/
def execFrameLen (l : Byte) (s : State) : Host.Outcome State Fault Refusal := .next (s.sendByte l)

/-- `FRAME.PAYLOAD`, offsets 5 to 4 + L (R73). -/
def execFramePayload (p : Byte) (s : State) : Host.Outcome State Fault Refusal := .next (s.sendByte p)

/-- `FRAME.CHECKSUM`, offset 5 + L (R73). -/
def execFrameChecksum (c : Byte) (s : State) : Host.Outcome State Fault Refusal := .next (s.sendByte c)

end Sys2Proof.Machine
end

