-- ==== Sys2Proof/Machine/Framer.lean ====
section
/-! DEFINITION. The framer family (42_framer.md). All five are pure functions: none holds state, writes a flag or reads time; the
value is put into `State.result` (log 6). -/

namespace Sys2Proof.Machine

/-- `FRM.XOR` (R126). -/
def execFrmXor (x : List Byte) (s : State) : Host.Outcome State Fault Refusal := .next (s.returning (.byte (xorBytes x)))

/-- `FRM.BUILD` (R127). -/
def execFrmBuild (payload : List Byte) (s : State) : Host.Outcome State Fault Refusal :=
  .next (s.returning (.frame (buildFrame payload)))

/-- `FRM.SERIALIZE` (R128). -/
def execFrmSerialize (f : Frame) (s : State) : Host.Outcome State Fault Refusal := .next (s.returning (.bytes (serialize s.params f)))

/-- `FRM.PARSE` (R129). -/
def execFrmParse (bytes : List Byte) (s : State) : Host.Outcome State Fault Refusal :=
  .next (s.returning (.parsed (parseFrame s.params bytes)))

/-- `CRED.SPLIT` (R131). -/
def execCredSplit (payload : List Byte) (s : State) : Host.Outcome State Fault Refusal :=
  .next (s.returning (.split (splitCredentials s.params payload)))

end Sys2Proof.Machine
end

