-- ==== Sys2Proof/Machine/Flags.lean ====
section
/-! DEFINITION. The flags of a tick: every bit of the select word (30_encoding.md R76), and the outputs that are not registers
(10_state.md R34, R40). -/

namespace Sys2Proof.Machine

/-- SEL[10] `tx_done` (R76). -/
def State.txDone (s : State) : Bool := decide (total s.params s.txFrameBytes ≤ s.txElapsed)

/-- SEL[9] `s_timeout` (R76). -/
def State.windowElapsed (s : State) : Bool := decide (s.params.tSTimeout ≤ s.txElapsed)

/-- SEL[8] `edge` (R76, R105). -/
def State.edge (s : State) : Bool := s.ports.rxLevel != s.frontEnd.prevSample

/-- SEL[5] `below_noise` (R76). -/
def State.belowNoise (s : State) : Bool := decide (s.delta < s.params.tNoise)

/-- SEL[4] `idle_expired` (R76, R105). -/
def State.idleExpired (s : State) : Bool := decide (s.params.tIdle ≤ s.quietTime)

/-- SEL[0] `colon_found`: some byte of the received payload is the colon (R76). -/
def State.colonFound (s : State) : Bool := s.framePayloadBytes.any (fun b => b == s.params.colon)

/-- The fields of the select word, by name (R76). -/
structure Select where
  rst : Bool
  role : Bool
  st : BitVec 2
  trigger : Bool
  txDone : Bool
  windowElapsed : Bool
  edge : Bool
  seeded : Bool
  calibrating : Bool
  belowNoise : Bool
  idleExpired : Bool
  gateOk : Bool
  po : BitVec 2
  colonFound : Bool
deriving DecidableEq, Repr

/-- The select word `SEL[15:0]` (R76). -/
def Select.word (x : Select) : BitVec 16 :=
  BitVec.ofBool x.rst ++ BitVec.ofBool x.role ++ x.st ++ BitVec.ofBool x.trigger ++ BitVec.ofBool x.txDone ++
    BitVec.ofBool x.windowElapsed ++ BitVec.ofBool x.edge ++ BitVec.ofBool x.seeded ++ BitVec.ofBool x.calibrating ++
    BitVec.ofBool x.belowNoise ++ BitVec.ofBool x.idleExpired ++ BitVec.ofBool x.gateOk ++ x.po ++ BitVec.ofBool x.colonFound

/-- The select fields of a tick, from the pre-tick state and the tick's inputs (R76). -/
def State.select (s : State) : Select :=
  { rst := s.ports.rst
    role := s.role.bit
    st := s.st
    trigger := s.ports.trigger
    txDone := s.txDone
    windowElapsed := s.windowElapsed
    edge := s.edge
    seeded := s.session.seeded
    calibrating := s.session.calibrating
    belowNoise := s.belowNoise
    idleExpired := s.idleExpired
    gateOk := s.session.gateOk s.params
    po := s.parsed.bits
    colonFound := s.colonFound }

/-- `SEL[15:0]` of a tick (R76). -/
def State.sel (s : State) : BitVec 16 := s.select.word

/-- The output `done`: the device is in a terminal state (R34). -/
def State.done (s : State) : Bool :=
  match s.role with
  | .sender => s.st == sListening
  | .receiver => s.st.getLsbD 1

/-- The output ports (R40). -/
structure Outputs where
  txLevel : Level
  credValid : Bool
  ssid : List Byte
  ssidLen : Byte
  password : List Byte
  passwordLen : Byte
  outcome : BitVec 3
  outcomeStrobe : Bool
  done : Bool
  st : BitVec 2
  frameValid : Bool
  seeded : Bool
  calibrating : Bool
  nominalPeriod : Nat
  bitCount : Nat
deriving DecidableEq, Repr

/-- What the output ports show after a tick (R40, R162). -/
def State.outputs (s : State) : Outputs :=
  { txLevel := s.tx.level
    credValid := s.cred.valid
    ssid := s.ssidBytes
    ssidLen := s.cred.ssidLen
    password := s.passwordBytes
    passwordLen := s.cred.passwordLen
    outcome := s.outcome.bits
    outcomeStrobe := s.outcomeStrobe
    done := s.done
    st := s.st
    frameValid := s.frame.valid
    seeded := s.session.seeded
    calibrating := s.session.calibrating
    nominalPeriod := s.session.nominalPeriod
    bitCount := s.session.bitCount }

end Sys2Proof.Machine
end

