-- ==== Sys2Proof/Machine/Decoder.lean ====
section
/-! DEFINITION. The decoder family (41_decoder.md): the front end, the edge operations, the end of a session, its reset, and the
decoder as a function of events (R116). -/

namespace Sys2Proof.Machine

/-! ### The front end -/

/-- The front end's registers after a tick, from the pre-tick state (R105). -/
def State.frontEndAfter (s : State) : FrontEnd :=
  { prevSample := s.ports.rxLevel
    lastChangeTime := if s.edge then s.now else s.frontEnd.lastChangeTime }

/-- The decoder is given events only while it listens (R105). -/
def State.listening (s : State) : Bool := s.st == rListening

/-- An edge event for the decoder (R105). -/
def State.edgeEvent (s : State) : Bool := s.listening && s.edge

/-- An idle-timeout event for the decoder: armed by `seeded` (R105). -/
def State.idleEvent (s : State) : Bool := s.listening && s.session.seeded && s.idleExpired

/-- `RXFE.SAMPLE` (R105). -/
def execRxfeSample (s : State) : Host.Outcome State Fault Refusal :=
  .next { s with
    frontEnd := s.frontEndAfter
    result := .sampled s.edge s.idleExpired s.edgeEvent s.idleEvent }

/-! ### Edges -/

/-- `DEC.SEED` (R107). -/
def execDecSeed (s : State) : Host.Outcome State Fault Refusal := .next s.seedNow

/-- `DEC.CAL` (R108). -/
def execDecCal (s : State) : Host.Outcome State Fault Refusal :=
  .next { s with session := s.session.calibrateWith s.params s.delta s.now s.ports.rxLevel }

/-- `DEC.REJECT` (R109): no register is written. -/
def execDecReject (s : State) : Host.Outcome State Fault Refusal := .next s

/-- `DEC.BIT` (R110): one bit, and with the eighth of a byte one cell of `raw_bytes` (R113). -/
def execDecBit (s : State) : Host.Outcome State Fault Refusal :=
  .next { s with
    session := s.session.bitWith s.params s.delta s.now s.ports.rxLevel
    mem := { s.mem with rawBytes := s.session.accumulateCells s.params s.mem.rawBytes (s.session.bitOf s.delta) } }

/-! ### The end of a session -/

/-- Raise an error kind at the end of a session; an edge in the same tick opens the next one (R114, R152, R154). -/
def State.endSession (s : State) (k : ErrorKind) : State :=
  if s.edge then (s.raise k).seedNow else s.raise k

/-- Take a valid frame into the frame register and leave the listening state (R153). -/
def State.acceptFrame (s : State) (f : Frame) : State :=
  { (s.report .frameOk).sessionReset with
    frame := { valid := true, len := f.length, checksum := f.checksum }
    mem := s.mem.copyIn .framePayload f.payload
    st := rApplying }

/-- The state after the idle-timeout event: the gate, then the parse, then the arm (R114). -/
def State.endOfFrame (s : State) : State :=
  if s.session.gateOk s.params then
    match s.parsed with
    | .ok f => s.acceptFrame f
    | .err k => s.endSession k.kind
  else s.endSession .noiseOnlySession

/-- `DEC.IDLE` (R114). -/
def execDecIdle (s : State) : Host.Outcome State Fault Refusal := .next s.endOfFrame

/-- `DEC.RESET` (R115). -/
def execDecReset (s : State) : Host.Outcome State Fault Refusal := .next s.sessionReset

/-! ### The decoder as a function of events (R116) -/

/-- A session value: its registers and the cells of its byte buffer (R116). -/
structure SessionValue where
  regs : Session
  cells : List Host.Cell
deriving DecidableEq, Repr

/-- The session value of a state. -/
def State.sessionValue (s : State) : SessionValue := { regs := s.session, cells := s.mem.rawBytes }

/-- The closed bytes of a session value (R23). -/
def SessionValue.bytes (x : SessionValue) : List Byte := Cells.memRead .rawBytes x.cells 0 x.regs.byteCount

/-- `DecEdge(s, t, lvl)` (R116), for a decoder with parameters `P`. -/
def decEdge (P : Params) (x : SessionValue) (t : Nat) (lvl : Level) : SessionValue :=
  if x.regs.seeded then
    let d := elapsed P t x.regs.lastEdgeTime
    if x.regs.calibrating then { x with regs := x.regs.calibrateWith P d t lvl }
    else if d < P.tNoise then x
    else { regs := x.regs.bitWith P d t lvl, cells := x.regs.accumulateCells P x.cells (x.regs.bitOf d) }
  else { x with regs := x.regs.seedWith t lvl }

/-- Feed a sequence of edge events (R116). -/
def decEdges (P : Params) (x : SessionValue) : List (Nat × Level) → SessionValue
  | [] => x
  | e :: rest => decEdges P (decEdge P x e.1 e.2) rest

/-- What the idle-timeout event hands on (R116). -/
inductive IdleResult where
  | handoff (bytes : List Byte)
  | discard
deriving DecidableEq, Repr

/-- `DecIdle(s)`: the hand-off or discard, and the reset session (R116). -/
def decIdleEvent (P : Params) (x : SessionValue) : IdleResult × SessionValue :=
  (if x.regs.gateOk P then .handoff x.bytes else .discard, { x with regs := Session.empty P })

end Sys2Proof.Machine
end

