-- ==== Sys2Proof/Machine/Receiver.lean ====
section
/-! DEFINITION. The Receiver operations (43_role_fsm.md R150 to R160). The front end's writes of the same tick are `RXFE.SAMPLE`'s
(R105, R162), which `step` performs beside the operation. -/

namespace Sys2Proof.Machine

/-- `R.QUIET` (R150): no register is written. -/
def execRQuiet (s : State) : Host.Outcome State Fault Refusal := .next s

/-- `R.INFRAME` (R151): no register is written. -/
def execRInframe (s : State) : Host.Outcome State Fault Refusal := .next s

/-- `R.DISCARD` (R152). -/
def execRDiscard (s : State) : Host.Outcome State Fault Refusal := .next (s.endSession .noiseOnlySession)

/-- `R.ACCEPT` (R153). Its operand is the frame the session parses to; performed by itself where there is none, it stops (log 10). -/
def execRAccept (s : State) : Host.Outcome State Fault Refusal :=
  match s.parsed with
  | .ok f => .next (s.acceptFrame f)
  | .err _ => .fault .noFrameToAccept

/-- `R.REJECT.SIG` (R154). -/
def execRRejectSig (s : State) : Host.Outcome State Fault Refusal := .next (s.endSession .signatureMismatch)

/-- `R.REJECT.TRUNC` (R155). -/
def execRRejectTrunc (s : State) : Host.Outcome State Fault Refusal := .next (s.endSession .truncated)

/-- `R.REJECT.CHK` (R156). -/
def execRRejectChk (s : State) : Host.Outcome State Fault Refusal := .next (s.endSession .checksumMismatch)

/-- Hand the split credentials over (R157). -/
def State.applyCredentials (s : State) (ssid password : List Byte) : State :=
  { s with
    mem := (s.mem.copyIn .ssid ssid).copyIn .password password
    cred := { valid := true, ssidLen := BitVec.ofNat 8 ssid.length, passwordLen := BitVec.ofNat 8 password.length }
    frame := { s.frame with valid := false }
    st := rFinished }

/-- `R.APPLY` (R157). Its operand is the split of the payload; performed by itself where there is no colon, it stops (log 10). -/
def execRApply (s : State) : Host.Outcome State Fault Refusal :=
  match s.splitPayload with
  | .ok ssid password => .next (s.applyCredentials ssid password)
  | .err => .fault .noColonToApply

/-- `R.CREDERR` (R158). -/
def execRCrederr (s : State) : Host.Outcome State Fault Refusal :=
  .next { s.raise .credentialFormatError with frame := { s.frame with valid := false } }

/-- `R.DONE` (R159): no register is written. -/
def execRDone (s : State) : Host.Outcome State Fault Refusal := .next s

/-- `R.RSVD` (R160): no register is written. -/
def execRRsvd (s : State) : Host.Outcome State Fault Refusal := .next s

end Sys2Proof.Machine
end

