-- ==== Sys2Proof/Machine/Reset.lean ====
section
/-! DEFINITION. Synchronous reset (43_role_fsm.md R161, 70_reset_and_hazards.md R190). -/

namespace Sys2Proof.Machine

/-- The state after a reset tick: every register of the spec at its reset value, the role from the strap (R41, R161); the model's
own record of inputs placed, drawn and sampled, and of returned values, stays (log 14). `outcome_strobe` is 0 at this tick. -/
def State.afterReset (s : State) : State :=
  { State.resetAs s.params s.ports.roleStrap with
    ports := s.ports, stimuli := s.stimuli, draws := s.draws, result := s.result }

/-- `SYS.RESET` (R161). -/
def execSysReset (s : State) : Host.Outcome State Fault Refusal := .next s.afterReset

end Sys2Proof.Machine
end

