-- ==== Sys2Proof/Machine/Sender.lean ====
section
/-! DEFINITION. The Sender operations (43_role_fsm.md R142 to R148). -/

namespace Sys2Proof.Machine

/-- `S.WAIT` (R142): no register is written. -/
def execSWait (s : State) : Host.Outcome State Fault Refusal := .next s

/-- The serialised frame that a trigger transmits (R143). -/
def State.frameToSend (s : State) : List Byte := serialize s.params (buildFrame (payloadOf s.ports))

/-- `S.TRIGGER` (R143): build the frame, latch it, start transmitting. -/
def execSTrigger (s : State) : Host.Outcome State Fault Refusal :=
  .next { s with
    mem := s.mem.copyIn .txFrame s.frameToSend
    tx := { frameLen := BitVec.ofNat 9 (s.ports.txLen.toNat + 6)
            startTime := s.now
            level := levelAt s.params s.frameToSend 0 }
    st := sTransmitting }

/-- `S.TXTICK` (R144). -/
def execSTxtick (s : State) : Host.Outcome State Fault Refusal := .next s.driveLine

/-- `S.TXDONE` (R145). -/
def execSTxdone (s : State) : Host.Outcome State Fault Refusal :=
  .next { s with tx := { s.tx with level := s.params.idleLevel }, st := sCooldown }

/-- `S.COOL` (R146): no register is written. -/
def execSCool (s : State) : Host.Outcome State Fault Refusal := .next s

/-- `S.TIMEOUT` (R147): the terminal event of the Sender; it does not use the `raise` mechanism (R173). -/
def execSTimeout (s : State) : Host.Outcome State Fault Refusal :=
  .next { s.report .senderTimeout with st := sListening }

/-- `S.HALT` (R148): no register is written. -/
def execSHalt (s : State) : Host.Outcome State Fault Refusal := .next s

end Sys2Proof.Machine
end

