-- ==== Sys2Proof/Machine/Dispatch.lean ====
section
/-! DEFINITION. One arm per operation of spec/opcode_table.json (30_encoding.md R77, R73). -/

namespace Sys2Proof.Machine

def exec (i : Instr) (s : State) : Host.Outcome State Fault Refusal :=
  match i with
  -- TICK: reset and the Sender
  | .sysReset => Sys2Proof.Machine.execSysReset s
  | .sWait => Sys2Proof.Machine.execSWait s
  | .sTrigger => Sys2Proof.Machine.execSTrigger s
  | .sTxtick => Sys2Proof.Machine.execSTxtick s
  | .sTxdone => Sys2Proof.Machine.execSTxdone s
  | .sCool => Sys2Proof.Machine.execSCool s
  | .sTimeout => Sys2Proof.Machine.execSTimeout s
  | .sHalt => Sys2Proof.Machine.execSHalt s
  -- TICK: the Receiver
  | .decSeed => Sys2Proof.Machine.execDecSeed s
  | .decCal => Sys2Proof.Machine.execDecCal s
  | .decReject => Sys2Proof.Machine.execDecReject s
  | .decBit => Sys2Proof.Machine.execDecBit s
  | .rQuiet => Sys2Proof.Machine.execRQuiet s
  | .rInframe => Sys2Proof.Machine.execRInframe s
  | .rDiscard => Sys2Proof.Machine.execRDiscard s
  | .rAccept => Sys2Proof.Machine.execRAccept s
  | .rRejectSig => Sys2Proof.Machine.execRRejectSig s
  | .rRejectTrunc => Sys2Proof.Machine.execRRejectTrunc s
  | .rRejectChk => Sys2Proof.Machine.execRRejectChk s
  | .rApply => Sys2Proof.Machine.execRApply s
  | .rCrederr => Sys2Proof.Machine.execRCrederr s
  | .rDone => Sys2Proof.Machine.execRDone s
  | .rRsvd => Sys2Proof.Machine.execRRsvd s
  -- WIRE
  | .encStart => Sys2Proof.Machine.execEncStart s
  | .encBit0 => Sys2Proof.Machine.execEncBit0 s
  | .encBit1 => Sys2Proof.Machine.execEncBit1 s
  | .encStop => Sys2Proof.Machine.execEncStop s
  -- FUNC
  | .encByte b => Sys2Proof.Machine.execEncByte b s
  | .encFrame bytes => Sys2Proof.Machine.execEncFrame bytes s
  | .txDrive => Sys2Proof.Machine.execTxDrive s
  | .rxfeSample => Sys2Proof.Machine.execRxfeSample s
  | .decIdle => Sys2Proof.Machine.execDecIdle s
  | .decReset => Sys2Proof.Machine.execDecReset s
  | .frmXor x => Sys2Proof.Machine.execFrmXor x s
  | .frmBuild payload => Sys2Proof.Machine.execFrmBuild payload s
  | .frmSerialize f => Sys2Proof.Machine.execFrmSerialize f s
  | .frmParse bytes => Sys2Proof.Machine.execFrmParse bytes s
  | .credSplit payload => Sys2Proof.Machine.execCredSplit payload s
  -- BYTE
  | .frameSig0 => Sys2Proof.Machine.execFrameSig0 s
  | .frameSig1 => Sys2Proof.Machine.execFrameSig1 s
  | .frameSig2 => Sys2Proof.Machine.execFrameSig2 s
  | .frameSig3 => Sys2Proof.Machine.execFrameSig3 s
  | .frameLen l => Sys2Proof.Machine.execFrameLen l s
  | .framePayload p => Sys2Proof.Machine.execFramePayload p s
  | .frameChecksum c => Sys2Proof.Machine.execFrameChecksum c s

end Sys2Proof.Machine
end

