-- ==== Sys2Proof/Decode.lean ====
section
/-! DEFINITION. The decoder of the three formats that have bit patterns (30_encoding.md R71, R73, R76, R77, R80), the encoder
written from the same tables, and the reading of a bare word of spec/opcode_table.json. -/

namespace Sys2Proof

/-- One row of the operation map (R77): the bits that are fixed, their values, the operation. -/
structure TickRow where
  mask : BitVec 16
  value : BitVec 16
  op : Instr
deriving DecidableEq, Repr

/-- The 23 TICK patterns (R77), in the table's order. -/
def tickTable : List TickRow :=
  [ ⟨0x8000#16, 0x8000#16, .sysReset⟩      -- 1xxxxxxxxxxxxxxx
  , ⟨0xF800#16, 0x0000#16, .sWait⟩         -- 00000xxxxxxxxxxx
  , ⟨0xF800#16, 0x0800#16, .sTrigger⟩      -- 00001xxxxxxxxxxx
  , ⟨0xF400#16, 0x1000#16, .sTxtick⟩       -- 0001x0xxxxxxxxxx
  , ⟨0xF400#16, 0x1400#16, .sTxdone⟩       -- 0001x1xxxxxxxxxx
  , ⟨0xF200#16, 0x2000#16, .sCool⟩         -- 0010xx0xxxxxxxxx
  , ⟨0xF200#16, 0x2200#16, .sTimeout⟩      -- 0010xx1xxxxxxxxx
  , ⟨0xF000#16, 0x3000#16, .sHalt⟩         -- 0011xxxxxxxxxxxx
  , ⟨0xF180#16, 0x4100#16, .decSeed⟩       -- 0100xxx10xxxxxxx
  , ⟨0xF1D0#16, 0x41C0#16, .decCal⟩        -- 0100xxx111x0xxxx
  , ⟨0xF1F0#16, 0x41A0#16, .decReject⟩     -- 0100xxx11010xxxx
  , ⟨0xF1F0#16, 0x4180#16, .decBit⟩        -- 0100xxx11000xxxx
  ] ++
  [ ⟨0xF180#16, 0x4000#16, .rQuiet⟩        -- 0100xxx00xxxxxxx
  , ⟨0xF190#16, 0x4080#16, .rInframe⟩      -- 0100xxx01xx0xxxx
  , ⟨0xF098#16, 0x4090#16, .rDiscard⟩      -- 0100xxxx1xx10xxx
  , ⟨0xF09E#16, 0x4098#16, .rAccept⟩       -- 0100xxxx1xx1100x
  , ⟨0xF09E#16, 0x409A#16, .rRejectSig⟩    -- 0100xxxx1xx1101x
  , ⟨0xF09E#16, 0x409C#16, .rRejectTrunc⟩  -- 0100xxxx1xx1110x
  , ⟨0xF09E#16, 0x409E#16, .rRejectChk⟩    -- 0100xxxx1xx1111x
  , ⟨0xF001#16, 0x5001#16, .rApply⟩        -- 0101xxxxxxxxxxx1
  , ⟨0xF001#16, 0x5000#16, .rCrederr⟩      -- 0101xxxxxxxxxxx0
  , ⟨0xF000#16, 0x6000#16, .rDone⟩         -- 0110xxxxxxxxxxxx
  , ⟨0xF000#16, 0x7000#16, .rRsvd⟩         -- 0111xxxxxxxxxxxx
  ]

/-- A select word matches a row when its fixed bits have the row's values (R77). -/
def TickRow.matches (r : TickRow) (sel : BitVec 16) : Bool := sel &&& r.mask == r.value

/-- The operation of a select word: the one row whose pattern matches (R77). -/
def decodeTick (sel : BitVec 16) : Except DecodeError Instr :=
  match tickTable.find? (fun r => r.matches sel) with
  | some r => .ok r.op
  | none => .error .noPattern

/-- The symbol of an interval of `uu` units (R71, R80; log 8). The first of a transmission is the calibration pulse whatever its length:
it is not rejected below the noise threshold (R71, R80). Later, an interval of no unit is ignored; one at or above the tail length ends
the transmission (R72); otherwise one unit is a 0, and two or more are a single 1, without an upper bound (R80).

The tail's units are `T_TAIL/T_HALF` (R71). Where `T_HALF` does not divide `T_TAIL` the spec gives no rounding: the model rounds down
(DESIGN CHOICE, log 22). -/
def decodeWire (P : Params) (first : Bool) (uu : Nat) : Except DecodeError Instr :=
  if first then .ok .encStart
  else if uu = 0 then .error .notASymbol
  else if P.tTail / P.tHalf ≤ uu then .ok .encStop
  else if uu = 1 then .ok .encBit0
  else .ok .encBit1

/-- A signature position: the byte must equal the constant (R73). -/
def decodeSig (want b : Byte) (op : Instr) : Except DecodeError Instr :=
  if b = want then .ok op else .error .signatureMismatch

/-- The frame byte at an offset, in a frame whose length byte reads `len` (R58, R73). -/
def decodeByte (P : Params) (offset : Nat) (len b : Byte) : Except DecodeError Instr :=
  if offset = 0 then decodeSig P.sig0 b .frameSig0
  else if offset = 1 then decodeSig P.sig1 b .frameSig1
  else if offset = 2 then decodeSig P.sig2 b .frameSig2
  else if offset = 3 then decodeSig P.sig3 b .frameSig3
  else if offset = 4 then .ok (.frameLen b)
  else if offset < 5 + len.toNat then .ok (.framePayload b)
  else if offset = 5 + len.toNat then .ok (.frameChecksum b)
  else .error .pastFrame

/-- The decoder of a machine with parameters `P`: total, with a named reason where a code stands for no operation. -/
def decode (P : Params) : Code → Except DecodeError Instr
  | .tick sel => decodeTick sel
  | .wire first uu => decodeWire P first uu
  | .byte offset len b => decodeByte P offset len b

/-- What an encoding leaves to its context: the don't-care bits of a select word, and for a frame byte the frame's length and
the payload byte's index. -/
structure Filling where
  dontCare : BitVec 16
  len : Byte
  index : Nat
deriving DecidableEq, Repr

/-- A TICK pattern with its don't-care bits filled in (R77). -/
def tickCode (mask value dontCare : BitVec 16) : Option Code :=
  some (.tick (value ||| (dontCare &&& ~~~mask)))

/-- The encoder, for every filling; a `FUNC` operation has no bit pattern, and a payload byte has one only at an index below the
frame's length (R71, R73, R77). The units of `STOP` are `T_TAIL/T_HALF` rounded down (DESIGN CHOICE, log 22). -/
def encodeAt (P : Params) (f : Filling) : Instr → Option Code
  | .sysReset => tickCode 0x8000#16 0x8000#16 f.dontCare
  | .sWait => tickCode 0xF800#16 0x0000#16 f.dontCare
  | .sTrigger => tickCode 0xF800#16 0x0800#16 f.dontCare
  | .sTxtick => tickCode 0xF400#16 0x1000#16 f.dontCare
  | .sTxdone => tickCode 0xF400#16 0x1400#16 f.dontCare
  | .sCool => tickCode 0xF200#16 0x2000#16 f.dontCare
  | .sTimeout => tickCode 0xF200#16 0x2200#16 f.dontCare
  | .sHalt => tickCode 0xF000#16 0x3000#16 f.dontCare
  | .decSeed => tickCode 0xF180#16 0x4100#16 f.dontCare
  | .decCal => tickCode 0xF1D0#16 0x41C0#16 f.dontCare
  | .decReject => tickCode 0xF1F0#16 0x41A0#16 f.dontCare
  | .decBit => tickCode 0xF1F0#16 0x4180#16 f.dontCare
  | .rQuiet => tickCode 0xF180#16 0x4000#16 f.dontCare
  | .rInframe => tickCode 0xF190#16 0x4080#16 f.dontCare
  | .rDiscard => tickCode 0xF098#16 0x4090#16 f.dontCare
  | .rAccept => tickCode 0xF09E#16 0x4098#16 f.dontCare
  | .rRejectSig => tickCode 0xF09E#16 0x409A#16 f.dontCare
  | .rRejectTrunc => tickCode 0xF09E#16 0x409C#16 f.dontCare
  | .rRejectChk => tickCode 0xF09E#16 0x409E#16 f.dontCare
  | .rApply => tickCode 0xF001#16 0x5001#16 f.dontCare
  | .rCrederr => tickCode 0xF001#16 0x5000#16 f.dontCare
  | .rDone => tickCode 0xF000#16 0x6000#16 f.dontCare
  | .rRsvd => tickCode 0xF000#16 0x7000#16 f.dontCare
  | .encStart => some (.wire true 1)
  | .encBit0 => some (.wire false 1)
  | .encBit1 => some (.wire false 2)
  | .encStop => some (.wire false (P.tTail / P.tHalf))
  | .encByte _ | .encFrame _ | .txDrive | .rxfeSample | .decIdle | .decReset
  | .frmXor _ | .frmBuild _ | .frmSerialize _ | .frmParse _ | .credSplit _ => none
  | .frameSig0 => some (.byte 0 f.len P.sig0)
  | .frameSig1 => some (.byte 1 f.len P.sig1)
  | .frameSig2 => some (.byte 2 f.len P.sig2)
  | .frameSig3 => some (.byte 3 f.len P.sig3)
  | .frameLen l => some (.byte 4 l l)
  | .framePayload p => if f.index < f.len.toNat then some (.byte (5 + f.index) f.len p) else none
  | .frameChecksum c => some (.byte (5 + f.len.toNat) f.len c)

/-- The code of an operation with its don't-care bits 0, in the shortest frame that has its position. -/
def encode (P : Params) (i : Instr) : Option Code := encodeAt P ⟨0#16, 1#8, 0⟩ i

/-- The code that a bare word of spec/opcode_table.json stands for (log 9). 16 bits are a select word. 8 bits carry no position:
the units 1, 2 and the tail's are read as the symbols of R77 (1 as a transmission's first symbol), the four signature constants as the
signature bytes, any other byte as a length byte, the first position that admits it. -/
def tableCode (P : Params) (nbits w : Nat) : Option Code :=
  if nbits = 16 then some (.tick (BitVec.ofNat 16 w))
  else if nbits = 8 then
    if w = 1 then some (.wire true 1)
    else if w = 2 then some (.wire false 2)
    else if w = P.tTail / P.tHalf then some (.wire false (P.tTail / P.tHalf))
    else
      let b : Byte := BitVec.ofNat 8 w
      if b = P.sig0 then some (.byte 0 0#8 b)
      else if b = P.sig1 then some (.byte 1 0#8 b)
      else if b = P.sig2 then some (.byte 2 0#8 b)
      else if b = P.sig3 then some (.byte 3 0#8 b)
      else some (.byte 4 b b)
  else none

/-- The operation the decoder reads from a bare word of the table, at the parameter values the table is written for; `none` where it
refuses. -/
def decodeTableWord (nbits w : Nat) : Option Instr :=
  match tableCode Params.default nbits w with
  | none => none
  | some c =>
    match decode Params.default c with
    | .ok i => some i
    | .error _ => none

end Sys2Proof
end

