-- ==== Sys2Proof/Machine/Fetch.lean ====
section
/-! DEFINITION. How a step finds what to perform and what it adds around the operation (43_role_fsm.md R162), and how a given code is
placed to be performed next (log 2, log 7, log 11, log 19). -/

namespace Sys2Proof.Machine

/-- Sample the input ports at the start of a tick. The strobe of the tick before is over (R34). -/
def State.beginTick (s : State) (p : Ports) : State := { s with ports := p, outcomeStrobe := false }

/-- What the next step performs, and the state it is performed in. The inputs of a tick are what is placed, or free values where
nothing is (log 1); the code of a tick is its select word (R76). -/
def State.fetch (s : State) : State × Code :=
  match s.stimuli with
  | [] =>
    let s' := { s with draws := s.draws + 1 }.beginTick (Config.environment s.draws)
    (s', .tick s'.sel)
  | .tick p :: rest =>
    let s' := { s with stimuli := rest }.beginTick p
    (s', .tick s'.sel)
  | .wire first uu :: rest => ({ s with stimuli := rest }, .wire first uu)
  | .byte offset len b :: rest => ({ s with stimuli := rest }, .byte offset len b)

/-- `RXFE.SAMPLE` of a tick: it runs in every receiver tick that is not a reset (R105, R161, R162). -/
def State.samplesLine (s : State) : Bool := !s.ports.rst && s.role == .receiver

/-- What a step adds after an operation performed in `s`: in a tick, the front end's writes, computed from the pre-tick state
(R162). They are disjoint from every TICK operation's. -/
def closeTick (c : Code) (s s' : State) : State :=
  match c with
  | .tick _ => if s.samplesLine then { s' with frontEnd := s.frontEndAfter } else s'
  | .wire _ _ => s'
  | .byte _ _ _ => s'

/-- `closeTick` on an outcome: a fault or a refusal stops as it is. -/
def finishStep (c : Code) (s : State) (r : Host.Outcome State Fault Refusal) : Host.Outcome State Fault Refusal :=
  match r with
  | .next s' => .next (closeTick c s s')
  | .fault e => .fault e
  | .refused e => .refused e

/-- A code that stands for no operation changes no register of the spec: it is ignored (R74, R80; log 13). -/
def State.rejectCode (s : State) (e : DecodeError) : State := s.returning (.rejected e)

/-! ### Placing a select word

At the default parameters, for every select word there are registers and inputs that have it (log 11). -/

/-- The time of a placed tick: late enough for every threshold. -/
def placedNow (P : Params) : Nat := P.stamp P.tSTimeout

/-- The instant `n` microseconds before the placed tick. -/
def placedBefore (P : Params) (n : Nat) : Nat := elapsed P (placedNow P) n

/-- Bytes whose parse result has the given code (R76, R129). -/
def placedBytes (P : Params) (po : BitVec 2) : List Byte :=
  if po = 0b00#2 then P.sig ++ [0#8, 0#8]
  else if po = 0b01#2 then [0#8, 0#8, 0#8, 0#8]
  else if po = 0b10#2 then P.sig
  else P.sig ++ [0#8, 1#8]

/-- The bytes of a transmission that outlasts the sender's window (R195). -/
def longFrame : List Byte := List.replicate 160 0xFF#8

/-- How long before the placed tick the transmission started, for the bits `tx_done` and `s_timeout`. -/
def placedTxElapsed (P : Params) (txDone windowElapsed : Bool) : Nat :=
  if windowElapsed then P.tSTimeout else if txDone then P.tHalf + P.tTail else 0

/-- The transmit registers of a placed tick. -/
def placedTx (s : State) (txDone windowElapsed : Bool) : TxReg :=
  { s.tx with
    frameLen := if windowElapsed && !txDone then 160#9 else 0#9
    startTime := placedBefore s.params (placedTxElapsed s.params txDone windowElapsed) }

/-- The session registers of a placed tick. -/
def placedSession (P : Params) (sel : BitVec 16) : Session :=
  { Session.empty P with
    seeded := sel.getLsbD 7
    calibrating := sel.getLsbD 6
    nominalPeriod := if sel.getLsbD 3 then P.tNoise + 1 else 0
    lastEdgeTime := placedBefore P (if sel.getLsbD 5 then 0 else P.tNoise)
    bitCount := 8 * (placedBytes P (sel.extractLsb' 1 2)).length }

/-- The buffers of a placed tick. -/
def placedMemory (s : State) (sel : BitVec 16) : Memory :=
  let m := s.mem.copyIn .rawBytes (placedBytes s.params (sel.extractLsb' 1 2))
  let m := if sel.getLsbD 9 && !sel.getLsbD 10 then m.copyIn .txFrame longFrame else m
  if sel.getLsbD 0 then m.copyIn .framePayload [s.params.colon] else m

/-- The inputs of a placed tick. -/
def placedPorts (s : State) (sel : BitVec 16) : Ports :=
  { s.ports with
    rst := sel.getLsbD 15
    now := placedNow s.params
    rxLevel := s.frontEnd.prevSample ^^ sel.getLsbD 8
    trigger := sel.getLsbD 11 }

/-- The state with registers, buffers and inputs set so that the next tick has the given select word (R76; log 11). That it has
it is sure at the default parameters; other parameters may have no state with that word. -/
def State.placeTick (s : State) (sel : BitVec 16) : State :=
  { s with
    role := if sel.getLsbD 14 then .receiver else .sender
    st := sel.extractLsb' 12 2
    session := placedSession s.params sel
    frontEnd := { s.frontEnd with lastChangeTime := placedBefore s.params (if sel.getLsbD 4 then s.params.tIdle else 0) }
    frame := { s.frame with len := if sel.getLsbD 0 then 1#8 else 0#8 }
    tx := placedTx s (sel.getLsbD 10) (sel.getLsbD 9)
    mem := placedMemory s sel
    stimuli := .tick (placedPorts s sel) :: s.stimuli }

/-- The state in which the next step performs the operation of a code. -/
def State.placeCode (s : State) (c : Code) : State :=
  match c with
  | .tick sel => s.placeTick sel
  | .wire first uu => { s with stimuli := .wire first uu :: s.stimuli }
  | .byte offset len b => { s with stimuli := .byte offset len b :: s.stimuli }

end Sys2Proof.Machine
end

