-- ==== Sys2Proof/Machine/Step.lean ====
section
/-! DEFINITION. One step of the machine: a tick (43_role_fsm.md R162), or one placed wire symbol or frame byte (log 7). -/

namespace Sys2Proof.Machine

/-- `Tick` (R162): find the code, decode it, perform the operation, let the front end write. -/
def step (s : State) : Host.Outcome State Fault Refusal :=
  match decode s.params s.fetch.2 with
  | .ok i => finishStep s.fetch.2 s.fetch.1 (exec i s.fetch.1)
  | .error e => .next (s.fetch.1.rejectCode e)

/-- `s` with the bare table word `w` placed so that the very next step performs it (log 2, log 9, log 11). -/
def State.withFetchWord (s : State) (nbits w : Nat) : State :=
  match tableCode s.params nbits w with
  | some c => s.placeCode c
  | none => s

end Sys2Proof.Machine
end

