-- ==== Sys2Proof/Machine/Script.lean ====
section
/-! DEFINITION. The stimulus notation (30_encoding.md R82, R83): a script is a list of lines, each line stands for ticks, and the
script's meaning is the fold of the tick over them. Also two devices on the ideal channel (60_exceptions.md R184). -/

namespace Sys2Proof.Machine

/-- `Tick(state, in)` (R162): one step with the given inputs placed. -/
def tick (s : State) (p : Ports) : Host.Outcome State Fault Refusal := step { s with stimuli := .tick p :: s.stimuli }

/-- The fold of `Tick` over inputs, stopping at the first fault or refusal (R60, R82). -/
def ticks : State → List Ports → Host.Outcome State Fault Refusal
  | s, [] => .next s
  | s, p :: rest =>
    match tick s p with
    | .next s' => ticks s' rest
    | .fault e => .fault e
    | .refused e => .refused e

/-- A line of a script (R82) or a pseudo-instruction (R83). `SEND` carries the start time of its `WAVE`. -/
inductive ScriptLine where
  | reset (role : Role)
  | payload (bytes : List Byte)
  | tick (t : Nat) (lvl : Level) (trig : Bool)
  | edge (t : Nat) (lvl : Level)
  | hold (t : Nat)
  | trig (t : Nat)
  | wave (t0 : Nat) (bytes : List Byte)
  | idleout
  | send (t0 : Nat) (payload : List Byte)
deriving DecidableEq, Repr

/-- What the lines before leave to the lines after: the payload, the previous tick's level, the time of the last edge line. -/
structure ScriptContext where
  payload : List Byte
  level : Level
  lastEdge : Nat
deriving DecidableEq, Repr

/-- The context of a script's first line, for a machine with parameters `P`: no payload, the line at rest (log 18). -/
def ScriptContext.start (P : Params) : ScriptContext := { payload := [], level := P.idleLevel, lastEdge := 0 }

/-- The inputs of a `TICK` line (R82). -/
def ScriptContext.ports (c : ScriptContext) (t : Nat) (lvl : Level) (trig : Bool) : Ports :=
  { rst := false, roleStrap := .sender, now := t, rxLevel := lvl, trigger := trig, txPayload := c.payload,
    txLen := BitVec.ofNat 8 c.payload.length }

/-- An `EDGE` line: its tick and the context after it (R83). -/
def ScriptContext.edgeTick (c : ScriptContext) (e : Nat × Level) : ScriptContext × List Ports :=
  ({ c with level := e.2, lastEdge := e.1 }, [c.ports e.1 e.2 false])

/-- The `EDGE` lines of a `WAVE` (R83). -/
def ScriptContext.edgeTicks (c : ScriptContext) : List (Nat × Level) → ScriptContext × List Ports
  | [] => (c, [])
  | e :: rest =>
    let r := (c.edgeTick e).1.edgeTicks rest
    (r.1, (c.edgeTick e).2 ++ r.2)

/-- `WAVE <t0> [bytes]`: an ideal noise-free transmission (R83). -/
def ScriptContext.waveTicks (P : Params) (c : ScriptContext) (t0 : Nat) (bytes : List Byte) : ScriptContext × List Ports :=
  c.edgeTicks (edgesFrom P t0 (segments P bytes))

/-- `IDLEOUT`: a tick without an edge, `T_IDLE` after the last edge (R83). -/
def ScriptContext.idleTicks (P : Params) (c : ScriptContext) : ScriptContext × List Ports :=
  (c, [c.ports (P.stamp (c.lastEdge + P.tIdle)) c.level false])

/-- The ticks of a line, and the context after it (R82, R83). -/
def ScriptContext.line (P : Params) (c : ScriptContext) : ScriptLine → ScriptContext × List Ports
  | .reset role => ({ c with level := P.idleLevel }, [{ quietPorts with rst := true, roleStrap := role }])
  | .payload bytes => ({ c with payload := bytes }, [])
  | .tick t lvl trig => ({ c with level := lvl }, [c.ports t lvl trig])
  | .edge t lvl => c.edgeTick (t, lvl)
  | .hold t => (c, [c.ports t c.level false])
  | .trig t => ({ c with level := false }, [c.ports t false true])
  | .wave t0 bytes => c.waveTicks P t0 bytes
  | .idleout => c.idleTicks P
  | .send t0 payload =>
    let r := c.waveTicks P t0 (serialize P (buildFrame payload))
    let q := r.1.idleTicks P
    (q.1, r.2 ++ q.2)

/-- The ticks of a script. -/
def ScriptContext.lines (P : Params) (c : ScriptContext) : List ScriptLine → List Ports
  | [] => []
  | l :: rest => (c.line P l).2 ++ (c.line P l).1.lines P rest

/-- A script's meaning: the fold of `Tick` over its lines (R82). -/
def runScript (s : State) (ls : List ScriptLine) : Host.Outcome State Fault Refusal :=
  ticks s ((ScriptContext.start s.params).lines s.params ls)

/-! ### Two devices (R184) -/

/-- Two independent devices (R184). Each is built with parameters of its own (log 21). -/
structure System where
  sender : State
  receiver : State
deriving DecidableEq, Repr

/-- The system is one device of each role (R184). -/
def System.wf (y : System) : Bool := decide (y.sender.role = .sender) && decide (y.receiver.role = .receiver)

/-- The two devices after their resets, each at its own role (R184). -/
def System.resetAs (P Q : Params) : System := { sender := State.resetAs P .sender, receiver := State.resetAs Q .receiver }

/-- The inputs of a system at a tick: the common time and the inputs of each device, its own reset among them (R184). Of a device's
inputs the channel replaces `now`, the device's strap, and the receiver's line (log 21). -/
structure SystemPorts where
  now : Nat
  sender : Ports
  receiver : Ports
deriving DecidableEq, Repr

/-- What the sender is given: its own inputs, the common time, the strap of its role (R184). -/
def SystemPorts.toSender (q : SystemPorts) : Ports := { q.sender with now := q.now, roleStrap := .sender }

/-- What the receiver is given: its own inputs, the common time, the strap of its role, and on its line the sender's output as the
sender's previous tick left it (R184). -/
def SystemPorts.toReceiver (q : SystemPorts) (line : Level) : Ports :=
  { q.receiver with now := q.now, roleStrap := .receiver, rxLevel := line }

/-- A tick of both devices on the ideal channel (R184). -/
def System.tick (y : System) (q : SystemPorts) : Host.Outcome System Fault Refusal :=
  match Sys2Proof.Machine.tick y.sender q.toSender, Sys2Proof.Machine.tick y.receiver (q.toReceiver y.sender.tx.level) with
  | .next s, .next r => .next { sender := s, receiver := r }
  | .fault e, _ => .fault e
  | .refused e, _ => .refused e
  | .next _, .fault e => .fault e
  | .next _, .refused e => .refused e

end Sys2Proof.Machine
end

