-- ==== Sys2Proof/Safety.lean ====
section
/-! DEFINITION. What holds of every state a run reaches (10_state.md R42; 43_role_fsm.md R160, R163), and the terms in which
statements say what an operation leaves unchanged. -/

namespace Sys2Proof.Machine

/-! ### What an operation leaves unchanged -/

/-- Every byte of every buffer reads as before. -/
def SameBuffers (s t : State) : Prop := ∀ name i, t.mem.readByte name i = s.mem.readByte name i

/-- Every byte reads as before but the bytes of one buffer below an index. -/
def SameBuffersBut (name : BufferName) (n : Nat) (s t : State) : Prop :=
  ∀ b i, ¬ (b = name ∧ i < n) → t.mem.readByte b i = s.mem.readByte b i

/-- The model's own record of inputs and returned values is unchanged. -/
def SameInputs (s t : State) : Prop :=
  t.ports = s.ports ∧ t.stimuli = s.stimuli ∧ t.draws = s.draws ∧ t.result = s.result

/-- No outcome is written: the register and the strobe are as before (R33, R34). -/
def SameOutcome (s t : State) : Prop := t.outcome = s.outcome ∧ t.outcomeStrobe = s.outcomeStrobe

/-- The parameters, every register of the spec and every byte are as before; only a returned value may differ (R90, 42_framer.md). -/
def SameMachine (s t : State) : Prop :=
  t.params = s.params ∧ t.role = s.role ∧ t.st = s.st ∧ t.session = s.session ∧ t.frontEnd = s.frontEnd ∧ t.frame = s.frame ∧ t.tx = s.tx ∧
    t.cred = s.cred ∧ SameOutcome s t ∧ SameBuffers s t ∧ t.ports = s.ports ∧ t.stimuli = s.stimuli ∧ t.draws = s.draws

/-! ### The invariant -/

/-- Every index below `n` is listed: no read below a valid count meets an unwritten cell (R55). -/
def ListedBelow (cs : List Host.Cell) (n : Nat) : Prop := ∀ i, i < n → (Cells.lookup cs i).isSome

/-- No cell lies at or beyond a capacity (R50). -/
def WithinCapacity (cs : List Host.Cell) (cap : Nat) : Prop := ∀ i, cap ≤ i → Cells.lookup cs i = none

/-- R42 items 1 to 3, on the session registers of a machine with parameters `P`. -/
def SessionOk (P : Params) (x : Session) : Prop :=
  x.bitCount ≤ 8 * P.rawCap ∧
  x.shift.toNat < 2 ^ x.bitPos ∧
  (x.seeded = false → x.calibrating = true ∧ x.bitCount = 0 ∧ x.nominalPeriod = 0) ∧
  (x.bitCount ≠ 0 → x.calibrating = false)

/-- Every register whose width is a parameter fits it: the timestamps and durations `TS_W`, the bit count `BC_W` (R18, R19, R21, R27,
R30, R8). -/
def WidthsOk (s : State) : Prop :=
  s.session.nominalPeriod < 2 ^ s.params.tsW ∧ s.session.lastEdgeTime < 2 ^ s.params.tsW ∧
  s.session.bitCount < 2 ^ s.params.bcW ∧
  s.frontEnd.lastChangeTime < 2 ^ s.params.tsW ∧ s.tx.startTime < 2 ^ s.params.tsW

/-- The buffers: canonical, within their capacities, written below their valid counts (R42 item 1, R50, R55). -/
def BuffersOk (s : State) : Prop :=
  s.mem.wf = true ∧
  (∀ name, WithinCapacity (s.mem.cells name) (name.capacity s.params)) ∧
  ListedBelow s.mem.rawBytes s.session.byteCount ∧
  ListedBelow s.mem.framePayload s.frame.len.toNat ∧
  ListedBelow s.mem.txFrame s.tx.frameLen.toNat ∧
  ListedBelow s.mem.ssid s.cred.ssidLen.toNat ∧
  ListedBelow s.mem.password s.cred.passwordLen.toNat

/-- R42 item 4: a Sender never runs the decoder. -/
def SenderOk (s : State) : Prop :=
  s.role = .sender →
    s.session = Session.empty s.params ∧
    s.frontEnd = { prevSample := s.params.idleLevel, lastChangeTime := 0 } ∧
    s.frame = { valid := false, len := 0#8, checksum := 0#8 } ∧
    s.cred = { valid := false, ssidLen := 0#8, passwordLen := 0#8 }

/-- R42 items 5 and 9, R160: a Receiver never transmits, holds an empty session outside `R_LISTENING`, and never reaches code 3. -/
def ReceiverOk (s : State) : Prop :=
  s.role = .receiver →
    s.tx = { frameLen := 0#9, startTime := 0, level := s.params.idleLevel } ∧
    (s.st ≠ rListening → s.session = Session.empty s.params) ∧
    s.st ≠ rReserved

/-- R42 items 6 and 7. -/
def FlagsOk (s : State) : Prop :=
  (s.frame.valid = true ↔ s.role = .receiver ∧ s.st = rApplying) ∧
  (s.cred.valid = true ↔ s.role = .receiver ∧ s.st = rFinished)

/-- The lengths that go with a transmission (R29) and with credentials (R131), and the quiet line outside a transmission (R163
item 4). -/
def LengthsOk (s : State) : Prop :=
  (s.tx.frameLen = 0#9 ∨ (6 ≤ s.tx.frameLen.toNat ∧ s.tx.frameLen.toNat ≤ s.params.rawCap)) ∧
  (s.st = sTransmitting → s.role = .sender → 6 ≤ s.tx.frameLen.toNat) ∧
  (s.cred.valid = true → s.cred.ssidLen.toNat + s.cred.passwordLen.toNat + 1 = s.frame.len.toNat) ∧
  (s.tx.level ≠ s.params.idleLevel → s.st = sTransmitting)

/-- What holds after reset and after every tick (R42, R160, R163), of a machine whose parameters fit (log 5). -/
def Inv (s : State) : Prop :=
  s.params.fits = true ∧ SessionOk s.params s.session ∧ WidthsOk s ∧ BuffersOk s ∧ SenderOk s ∧ ReceiverOk s ∧ FlagsOk s ∧ LengthsOk s

/-! ### The decision tree of the operation map (R84) -/

/-- The arm of `DEC.IDLE` that a parse result selects (R77, R114). -/
def idleArm (po : BitVec 2) : Instr :=
  if po = 0b00#2 then .rAccept
  else if po = 0b01#2 then .rRejectSig
  else if po = 0b10#2 then .rRejectTrunc
  else .rRejectChk

/-- The operation of a Sender's tick (R84, R141). -/
def Select.senderChoice (x : Select) : Instr :=
  if x.st = sIdle then (if x.trigger then .sTrigger else .sWait)
  else if x.st = sTransmitting then (if x.txDone then .sTxdone else .sTxtick)
  else if x.st = sCooldown then (if x.windowElapsed then .sTimeout else .sCool)
  else .sHalt

/-- The operation of a listening Receiver's tick (R84, R149). -/
def Select.listeningChoice (x : Select) : Instr :=
  if x.seeded then
    if x.idleExpired then (if x.gateOk then idleArm x.po else .rDiscard)
    else if x.edge then
      (if x.calibrating then .decCal else if x.belowNoise then .decReject else .decBit)
    else .rInframe
  else if x.edge then .decSeed
  else .rQuiet

/-- The operation that R84 reads off the select fields. -/
def Select.choice (x : Select) : Instr :=
  if x.rst then .sysReset
  else if x.role then
    if x.st = rListening then x.listeningChoice
    else if x.st = rApplying then (if x.colonFound then .rApply else .rCrederr)
    else if x.st = rFinished then .rDone
    else .rRsvd
  else x.senderChoice

end Sys2Proof.Machine
end

