-- ==== Sys2Proof/Certificates/Slice0/Obligations.lean ====
section
/-! DEFINITION. The statements for the provers. Each docstring names the rule of spec/ or, where the statement rests on a choice of
the model, the log entry. In a frame, `t = { s with f := t.f }` says that nothing but the field `f` may differ; `SameBuffers` and
`SameBuffersBut` say it of every byte as the machine reads it. -/

open Sys2Proof Sys2Proof.Machine

/-! ### Decoding and encoding -/

/-- Decode inverts encode, for every operation that has a bit pattern, every don't-care filling, every operand and every offset its
position admits (R71, R73, R77), whatever the parameters, so long as the tail has more units than a `BIT1` (R71: the units of `STOP` are
`T_TAIL/T_HALF`, which the model rounds down, log 22). -/
def Obligations.DecodeInvertsEncode : Prop :=
  ∀ (P : Params) (f : Filling) (i : Instr) (c : Code), 2 < P.tTail / P.tHalf → encodeAt P f i = some c → decode P c = .ok i

/-- R84: the 23 patterns partition the select words, and the tree of R84 is the decoder. -/
def Obligations.TickPatternsPartitionTheSelectWords : Prop :=
  tickTable.length = 23 ∧
  (∀ sel : BitVec 16, (tickTable.filter (fun r => r.matches sel)).length = 1) ∧
  (∀ x : Select, decodeTick x.word = .ok x.choice)

/-- Select words of the spec's dispatch table (95_test_vectors.md 2.7), written out bit by bit, decode to their operations (R77); at the
default parameters two wire intervals and a signature byte do too (R71, R73). -/
def Obligations.WrittenOutSelectWordsDecode : Prop :=
  (∀ P : Params,
    decode P (.tick 0b1000000000000000#16) = .ok .sysReset ∧
    decode P (.tick 0b0000100000000000#16) = .ok .sTrigger ∧
    decode P (.tick 0b0010001000000000#16) = .ok .sTimeout ∧
    decode P (.tick 0b0100000111100000#16) = .ok .decCal ∧
    decode P (.tick 0b0100000110000000#16) = .ok .decBit ∧
    decode P (.tick 0b0100000110011001#16) = .ok .rAccept ∧
    decode P (.tick 0b0101111111111110#16) = .ok .rCrederr) ∧
  decode Params.default (.wire false 0b00010) = .ok .encBit1 ∧
  decode Params.default (.wire false 0b10100) = .ok .encStop ∧
  decode Params.default (.byte 1 0#8 0b11111001#8) = .ok .frameSig1

/-- The bytes of a serialised frame, offset by offset, decode to the BYTE operations of their positions, and no offset beyond the
checksum decodes (R58, R73). -/
def Obligations.SerialisedFrameBytesDecodeByPosition : Prop :=
  ∀ (P : Params) (f : Frame), f.wf = true →
    decode P (.byte 0 f.length P.sig0) = .ok .frameSig0 ∧
    decode P (.byte 1 f.length P.sig1) = .ok .frameSig1 ∧
    decode P (.byte 2 f.length P.sig2) = .ok .frameSig2 ∧
    decode P (.byte 3 f.length P.sig3) = .ok .frameSig3 ∧
    (serialize P f).take 5 = [P.sig0, P.sig1, P.sig2, P.sig3, f.length] ∧
    decode P (.byte 4 f.length f.length) = .ok (.frameLen f.length) ∧
    (∀ k b, f.payload[k]? = some b →
      (serialize P f)[5 + k]? = some b ∧ decode P (.byte (5 + k) f.length b) = .ok (.framePayload b)) ∧
    (serialize P f)[5 + f.length.toNat]? = some f.checksum ∧
    decode P (.byte (5 + f.length.toNat) f.length f.checksum) = .ok (.frameChecksum f.checksum) ∧
    (serialize P f).length = f.length.toNat + 6 ∧
    (∀ k b, f.length.toNat + 6 ≤ k → decode P (.byte k f.length b) = .error .pastFrame)

/-- Wire intervals by position and number of units. The first of a transmission is `ENC.START` (R71), and is not rejected however short
(R80, third row). After it an interval of no unit is ignored (R80), one unit is a 0, and two or more below the tail are a single 1
(R71, R80). That the first is `ENC.START` whatever its length, and that an interval of the tail's units or more is `ENC.STOP`, are the
model's reading (log 8), and that the tail's units `T_TAIL/T_HALF` are rounded down is its choice (log 22). -/
def Obligations.WireIntervalsDecodeLeniently : Prop :=
  ∀ (P : Params) (uu : Nat), 2 < P.tTail / P.tHalf →
    decode P (.wire true uu) = .ok .encStart ∧
    (uu = 0 → decode P (.wire false uu) = .error .notASymbol) ∧
    (uu = 1 → decode P (.wire false uu) = .ok .encBit0) ∧
    (2 ≤ uu → uu < P.tTail / P.tHalf → decode P (.wire false uu) = .ok .encBit1) ∧
    (P.tTail / P.tHalf ≤ uu → decode P (.wire false uu) = .ok .encStop)

/-- At the default parameters, the model's placement of a select word (log 11) has exactly that select word, in every state, for every
word: so every word of R76 is one that some state and input have. -/
def Obligations.EverySelectWordCanBePlaced : Prop :=
  ∀ (s : State) (w : BitVec 16), s.params = Params.default → (s.withFetchWord 16 w.toNat).fetch.2 = .tick w

/-! ### The step -/

/-- A step runs the decoded operation (R162): with a tick placed, in the state that holds the tick's inputs and a strobe of 0; then
the front end writes, from the pre-tick state, in a receiver's tick that is no reset. With nothing placed the inputs are the
environment's (log 1). A placed wire symbol or frame byte is performed as it is (log 7). -/
def Obligations.StepRunsTheDecodedOperation : Prop :=
  (∀ (s : State) (p : Ports) (rest : List Stimulus) (i : Instr) (u : State),
    s.stimuli = .tick p :: rest →
    decodeTick ({ s with ports := p, stimuli := rest, outcomeStrobe := false } : State).sel = .ok i →
    exec i { s with ports := p, stimuli := rest, outcomeStrobe := false } = .next u →
    step s = .next
      (if p.rst = false ∧ s.role = .receiver then
        { u with frontEnd :=
            { prevSample := p.rxLevel,
              lastChangeTime := if p.rxLevel = s.frontEnd.prevSample then s.frontEnd.lastChangeTime else s.params.stamp p.now } }
       else u)) ∧
  (∀ (s : State) (i : Instr) (u : State),
    s.stimuli = [] →
    decodeTick ({ s with ports := Config.environment s.draws, draws := s.draws + 1, outcomeStrobe := false } : State).sel = .ok i →
    exec i { s with ports := Config.environment s.draws, draws := s.draws + 1, outcomeStrobe := false } = .next u →
    step s = .next
      (if (Config.environment s.draws).rst = false ∧ s.role = .receiver then
        { u with frontEnd :=
            { prevSample := (Config.environment s.draws).rxLevel,
              lastChangeTime :=
                if (Config.environment s.draws).rxLevel = s.frontEnd.prevSample then s.frontEnd.lastChangeTime
                else s.params.stamp (Config.environment s.draws).now } }
       else u)) ∧
  (∀ (s : State) (first : Bool) (uu : Nat) (rest : List Stimulus) (i : Instr),
    s.stimuli = .wire first uu :: rest → decode s.params (.wire first uu) = .ok i → ∀ u, exec i { s with stimuli := rest } = .next u →
    step s = .next u) ∧
  (∀ (s : State) (offset : Nat) (len b : Byte) (rest : List Stimulus) (i : Instr),
    s.stimuli = .byte offset len b :: rest → decode s.params (.byte offset len b) = .ok i → ∀ u, exec i { s with stimuli := rest } = .next u →
    step s = .next u)

/-- `Tick` is total (R162, R165): in every state the step answers a next state, never a fault and never a refusal. -/
def Obligations.StepAlwaysAnswersANextState : Prop :=
  ∀ s : State, ∃ t, step s = .next t

/-- The writes of a TICK operation are disjoint from `RXFE.SAMPLE`'s (R162): it leaves the front end alone, and the role (R140), the
parameters and the model's own record of inputs too; reset apart. -/
def Obligations.TickOperationsLeaveFrontEndAndRole : Prop :=
  ∀ (sel : BitVec 16) (i : Instr) (s t : State), decodeTick sel = .ok i → i ≠ .sysReset → exec i s = .next t →
    t.frontEnd = s.frontEnd ∧ t.role = s.role ∧ t.params = s.params ∧ SameInputs s t

/-- `outcome_strobe` and `done` (R34): after a tick, with placed or free inputs, the strobe is 1 exactly when the tick's operation is one
of the seven that raise or report, and `outcome` is otherwise as before, but for reset, which sets it to `NONE` with no strobe (R161);
`done` is the formula of R34. -/
def Obligations.StrobeMarksTheOutcomeWrites : Prop :=
  (∀ (s t : State) (sel : BitVec 16) (i : Instr), s.fetch.2 = .tick sel → decode s.params s.fetch.2 = .ok i → step s = .next t →
    (t.outcomeStrobe = true ↔
      i ∈ [Instr.rDiscard, .rAccept, .rRejectSig, .rRejectTrunc, .rRejectChk, .rCrederr, .sTimeout]) ∧
    (t.outcomeStrobe = false → i ≠ .sysReset → t.outcome = s.outcome) ∧
    (i = .sysReset → t.outcome = .none)) ∧
  (∀ s : State, s.done = true ↔
    (s.role = .sender ∧ s.st = 3#2) ∨ (s.role = .receiver ∧ s.st.getLsbD 1 = true))

/-! ### Reset -/

/-- `SYS.RESET` writes every register of the table of R41, the role from the strap (R161); it lists no buffer cell, the model's
form of "cells unspecified" (log 4), and leaves the parameters (log 5) and the model's record of inputs and results alone (log 14). -/
def Obligations.ResetWritesTheTable : Prop :=
  ∀ s : State, ∃ t, exec .sysReset s = .next t ∧
    t.role = s.ports.roleStrap ∧ t.st = 0#2 ∧
    t.session.seeded = false ∧ t.session.calibrating = true ∧ t.session.nominalPeriod = 0 ∧
    t.session.lastEdgeTime = 0 ∧ t.session.lastLevel = s.params.idleLevel ∧ t.session.bitCount = 0 ∧ t.session.shift = 0#8 ∧
    t.frontEnd.prevSample = s.params.idleLevel ∧ t.frontEnd.lastChangeTime = 0 ∧
    t.frame.valid = false ∧ t.frame.len = 0#8 ∧ t.frame.checksum = 0#8 ∧
    t.tx.frameLen = 0#9 ∧ t.tx.startTime = 0 ∧ t.tx.level = s.params.idleLevel ∧
    t.cred.valid = false ∧ t.cred.ssidLen = 0#8 ∧ t.cred.passwordLen = 0#8 ∧
    t.outcome = .none ∧ t.outcome.bits = 0#3 ∧ t.outcomeStrobe = false ∧
    (∀ name, t.mem.cells name = []) ∧ t.params = s.params ∧ SameInputs s t

/-- A reset tick has priority over everything and performs nothing else (R161, R176, R190): whatever the state and the other inputs,
the step is `SYS.RESET` and the front end does not sample. -/
def Obligations.ResetTickHasPriority : Prop :=
  ∀ (s : State) (p : Ports) (rest : List Stimulus), s.stimuli = .tick p :: rest → p.rst = true →
    step s = .next { State.resetAs s.params p.roleStrap with ports := p, stimuli := rest, draws := s.draws, result := s.result }

/-! ### The Sender -/

/-- The waiting and terminal operations, a rejected edge and the receiver's eventless operations write no register (R142, R146, R148,
R109, R150, R151, R159, R160). -/
def Obligations.QuietOperationsWriteNothing : Prop :=
  ∀ i ∈ [Instr.sWait, .sCool, .sHalt, .decReject, .rQuiet, .rInframe, .rDone, .rRsvd], ∀ s : State, exec i s = .next s

/-- `S.TRIGGER` (R143): the frame of the presented payload is latched, the time taken, the START pulse begins: the line leaves its idle
level, for every half-period that is not 0. -/
def Obligations.TriggerLatchesAndStartsTheFrame : Prop :=
  ∀ s : State, ∃ t, exec .sTrigger s = .next t ∧
    t.st = 1#2 ∧
    t.tx.frameLen.toNat = s.ports.txLen.toNat + 6 ∧
    t.tx.startTime = s.params.stamp s.ports.now ∧
    t.tx.level = levelAt s.params t.txFrameBytes 0 ∧
    (0 < s.params.tHalf → t.tx.level = !s.params.idleLevel) ∧
    t.txFrameBytes = s.params.sig ++ [s.ports.txLen] ++ payloadOf s.ports ++ [xorBytes (payloadOf s.ports)] ∧
    (payloadOf s.ports).length = s.ports.txLen.toNat ∧
    (∀ i b, i < s.ports.txLen.toNat → s.ports.txPayload[i]? = some b → (payloadOf s.ports)[i]? = some b) ∧
    t = { s with st := t.st, tx := t.tx, mem := { s.mem with txFrame := t.mem.txFrame } } ∧
    SameBuffersBut .txFrame (s.ports.txLen.toNat + 6) s t

/-- `S.TXTICK` and `TX.DRIVE` (R98, R144): the line takes the waveform's level at the elapsed time, and nothing else changes. -/
def Obligations.TransmitTickDrivesTheLine : Prop :=
  ∀ i ∈ [Instr.sTxtick, .txDrive], ∀ s : State, ∃ t, exec i s = .next t ∧
    t.tx.level = levelAt s.params (s.mem.memRead .txFrame 0 s.tx.frameLen.toNat) (elapsed s.params s.now s.tx.startTime) ∧
    t.tx.frameLen = s.tx.frameLen ∧ t.tx.startTime = s.tx.startTime ∧
    t = { s with tx := t.tx } ∧ SameBuffers s t

/-- `S.TXDONE` (R145): the line returns to idle, the Sender cools down. -/
def Obligations.TransmissionEndsInCooldown : Prop :=
  ∀ s : State, ∃ t, exec .sTxdone s = .next t ∧
    t.st = 2#2 ∧ t.tx.level = s.params.idleLevel ∧ t.tx.frameLen = s.tx.frameLen ∧ t.tx.startTime = s.tx.startTime ∧
    t = { s with st := t.st, tx := t.tx } ∧ SameBuffers s t

/-- `S.TIMEOUT` (R147, R173): the Sender is done, with outcome 7 and a strobe; no session is reset. -/
def Obligations.TimeoutEndsTheSender : Prop :=
  ∀ s : State, ∃ t, exec .sTimeout s = .next t ∧
    t.st = 3#2 ∧ t.outcome.bits = 7#3 ∧ t.outcomeStrobe = true ∧ (s.role = .sender → t.done = true) ∧
    t = { s with st := t.st, outcome := t.outcome, outcomeStrobe := t.outcomeStrobe } ∧ SameBuffers s t

/-- The Sender's transition table (R141), row by row: which operation a tick performs and where it goes. -/
def Obligations.SenderFollowsItsTransitionTable : Prop :=
  ∀ (s : State) (p : Ports) (rest : List Stimulus), s.stimuli = .tick p :: rest → s.role = .sender → p.rst = false →
    ∃ t, step s = .next t ∧ t.role = .sender ∧
      (s.st = 0#2 → p.trigger = false → decode s.params s.fetch.2 = .ok .sWait ∧ t.st = 0#2) ∧
      (s.st = 0#2 → p.trigger = true → decode s.params s.fetch.2 = .ok .sTrigger ∧ t.st = 1#2) ∧
      (s.st = 1#2 → elapsed s.params p.now s.tx.startTime < total s.params s.txFrameBytes → decode s.params s.fetch.2 = .ok .sTxtick ∧ t.st = 1#2) ∧
      (s.st = 1#2 → total s.params s.txFrameBytes ≤ elapsed s.params p.now s.tx.startTime → decode s.params s.fetch.2 = .ok .sTxdone ∧ t.st = 2#2) ∧
      (s.st = 2#2 → elapsed s.params p.now s.tx.startTime < s.params.tSTimeout → decode s.params s.fetch.2 = .ok .sCool ∧ t.st = 2#2) ∧
      (s.st = 2#2 → s.params.tSTimeout ≤ elapsed s.params p.now s.tx.startTime → decode s.params s.fetch.2 = .ok .sTimeout ∧ t.st = 3#2) ∧
      (s.st = 3#2 → decode s.params s.fetch.2 = .ok .sHalt ∧ t.st = 3#2)

/-- A Sender ignores its line input (R142, R180, R194): two ticks that differ only in `rx_level` leave the same registers. -/
def Obligations.SenderIgnoresItsLineInput : Prop :=
  ∀ (s t : State) (p : Ports) (lvl : Level) (rest : List Stimulus), s.role = .sender → p.rst = false →
    s.stimuli = .tick p :: rest → step s = .next t →
    step { s with stimuli := .tick { p with rxLevel := lvl } :: rest } = .next { t with ports := { p with rxLevel := lvl } }

/-- The payload latch (R64, R201): once a Sender has left `S_IDLE`, `trigger`, `tx_payload` and `tx_len` have no effect. -/
def Obligations.PayloadIsLatchedAtTheTrigger : Prop :=
  ∀ (s t : State) (p : Ports) (trig : Bool) (payload : List Byte) (len : Byte) (rest : List Stimulus),
    s.role = .sender → s.st ≠ 0#2 → p.rst = false → s.stimuli = .tick p :: rest → step s = .next t →
    step { s with stimuli := .tick { p with trigger := trig, txPayload := payload, txLen := len } :: rest } =
      .next { t with ports := { p with trigger := trig, txPayload := payload, txLen := len } }

/-! ### The encoder -/

/-- The wire symbols (R91, R92, R93, R95) are these action lists, and performing one changes no register. -/
def Obligations.WireSymbolsAreTheirActions : Prop :=
  ∀ s : State,
    (∃ t, exec .encStart s = .next t ∧ t.result = .actions [⟨true, s.params.tHalf⟩] ∧ SameMachine s t) ∧
    (∃ t, exec .encBit0 s = .next t ∧ t.result = .actions [⟨true, s.params.tHalf⟩] ∧ SameMachine s t) ∧
    (∃ t, exec .encBit1 s = .next t ∧ t.result = .actions [⟨true, s.params.tHalf⟩, ⟨false, s.params.tHalf⟩] ∧ SameMachine s t) ∧
    (∃ t, exec .encStop s = .next t ∧ t.result = .actions [⟨true, s.params.tTail⟩] ∧ SameMachine s t)

/-- `ENC.BYTE` (R94): the eight bits, most significant first, as symbols; `8 + popcount` actions, `T_HALF * (8 + popcount)` µs of
hold, exactly eight toggles. -/
def Obligations.ByteIsSentMostSignificantBitFirst : Prop :=
  ∀ (b : Byte) (s : State), ∃ t as, exec (.encByte b) s = .next t ∧ t.result = .actions as ∧ SameMachine s t ∧
    as = [7, 6, 5, 4, 3, 2, 1, 0].flatMap (fun k => bitActions s.params (b.getLsbD k)) ∧
    as.length = 8 + popcount [b] ∧
    (as.map Action.hold).sum = s.params.tHalf * (8 + popcount [b]) ∧
    as.countP Action.toggle = 8

/-- `ENC.FRAME` (R96): one start pulse, the bytes in order, the stop symbol; `2 + 8 * len + popcount` actions. -/
def Obligations.FrameIsStartBytesStop : Prop :=
  ∀ (bytes : List Byte) (s : State), ∃ t as, exec (.encFrame bytes) s = .next t ∧ t.result = .actions as ∧ SameMachine s t ∧
    as = [⟨true, s.params.tHalf⟩] ++ bytes.flatMap (byteActions s.params) ++ [⟨true, s.params.tTail⟩] ∧
    as.length = 2 + 8 * bytes.length + popcount bytes

/-- The waveform of a transmission (R97): its segments one by one, from the idle level and alternating, its total, and its level at
every offset. -/
def Obligations.WaveformSegmentsAndLevels : Prop :=
  ∀ (P : Params) (bytes : List Byte),
    (segments P bytes).length = 8 * bytes.length + 2 ∧
    (segments P bytes)[0]? = some ⟨!P.idleLevel, P.tHalf⟩ ∧
    (∀ k v, (wireBits bytes)[k]? = some v →
      (segments P bytes)[k + 1]? = some ⟨P.idleLevel ^^ decide (k % 2 = 1), P.tHalf * (1 + v.toNat)⟩) ∧
    (segments P bytes)[8 * bytes.length + 1]? = some ⟨P.idleLevel, P.tTail⟩ ∧
    duration (segments P bytes) = P.tHalf * (1 + 8 * bytes.length + popcount bytes) + P.tTail ∧
    total P bytes = duration (segments P bytes) ∧
    (∀ k g e, (segments P bytes)[k]? = some g → duration ((segments P bytes).take k) ≤ e →
      e < duration ((segments P bytes).take (k + 1)) → levelAt P bytes e = g.level) ∧
    (∀ e, total P bytes ≤ e → levelAt P bytes e = P.idleLevel)

/-- Bit `j` of a waveform is bit `7 - j mod 8` of byte `j div 8` (R51, R66). -/
def Obligations.WireBitOrder : Prop :=
  ∀ (bytes : List Byte) (j : Nat), j < 8 * bytes.length →
    (wireBits bytes)[j]? = (bytes[j / 8]?).map (fun b => b.getLsbD (7 - j % 8))

/-- The bytes of a frame, each passed individually to the encoder (R52, R73): the value is the byte and its actions (log 6, log 15),
and no register changes. -/
def Obligations.FrameByteOperationsSendTheirByte : Prop :=
  ∀ s : State,
    (∃ t, exec .frameSig0 s = .next t ∧ t.result = .sent s.params.sig0 (byteActions s.params s.params.sig0) ∧ SameMachine s t) ∧
    (∃ t, exec .frameSig1 s = .next t ∧ t.result = .sent s.params.sig1 (byteActions s.params s.params.sig1) ∧ SameMachine s t) ∧
    (∃ t, exec .frameSig2 s = .next t ∧ t.result = .sent s.params.sig2 (byteActions s.params s.params.sig2) ∧ SameMachine s t) ∧
    (∃ t, exec .frameSig3 s = .next t ∧ t.result = .sent s.params.sig3 (byteActions s.params s.params.sig3) ∧ SameMachine s t) ∧
    (∀ b, ∃ t, exec (.frameLen b) s = .next t ∧ t.result = .sent b (byteActions s.params b) ∧ SameMachine s t) ∧
    (∀ b, ∃ t, exec (.framePayload b) s = .next t ∧ t.result = .sent b (byteActions s.params b) ∧ SameMachine s t) ∧
    (∀ b, ∃ t, exec (.frameChecksum b) s = .next t ∧ t.result = .sent b (byteActions s.params b) ∧ SameMachine s t)

/-! ### The decoder -/

/-- `RXFE.SAMPLE` (R105): the sample is kept, an edge restarts the idle reference, and the two events go to the decoder only while it
listens, the idle event only with a session open. -/
def Obligations.FrontEndSamplesTheLine : Prop :=
  ∀ s : State, ∃ t edge idle, exec .rxfeSample s = .next t ∧
    (edge = true ↔ s.ports.rxLevel ≠ s.frontEnd.prevSample) ∧
    (idle = true ↔ s.params.tIdle ≤ elapsed s.params s.now s.frontEnd.lastChangeTime) ∧
    t.frontEnd.prevSample = s.ports.rxLevel ∧
    t.frontEnd.lastChangeTime = (if edge then s.params.stamp s.ports.now else s.frontEnd.lastChangeTime) ∧
    t.result = .sampled edge idle (decide (s.st = 0#2) && edge) (decide (s.st = 0#2) && s.session.seeded && idle) ∧
    t = { s with frontEnd := t.frontEnd, result := t.result } ∧ SameBuffers s t

/-- `DEC.SEED` (R107). -/
def Obligations.SeedRecordsTheReference : Prop :=
  ∀ s : State, ∃ t, exec .decSeed s = .next t ∧
    t.session.seeded = true ∧ t.session.lastEdgeTime = s.params.stamp s.ports.now ∧ t.session.lastLevel = s.ports.rxLevel ∧
    t.session.calibrating = s.session.calibrating ∧ t.session.nominalPeriod = s.session.nominalPeriod ∧
    t.session.bitCount = s.session.bitCount ∧ t.session.shift = s.session.shift ∧
    t = { s with session := t.session } ∧ SameBuffers s t

/-- `DEC.CAL` (R108): the period is the scaled delta, rounded down, kept to `TS_W` bits; with a margin below one nothing is lost. The noise
threshold is not applied. -/
def Obligations.CalibrationLearnsThePeriod : Prop :=
  ∀ (s : State) (d : Nat), d = elapsed s.params s.now s.session.lastEdgeTime → ∃ t, exec .decCal s = .next t ∧
    t.session.nominalPeriod = s.params.stamp (s.params.marginNum * d / s.params.marginDen) ∧
    (s.params.marginNum < s.params.marginDen → t.session.nominalPeriod = s.params.marginNum * d / s.params.marginDen) ∧
    t.session.calibrating = false ∧ t.session.lastEdgeTime = s.params.stamp s.ports.now ∧ t.session.lastLevel = s.ports.rxLevel ∧
    t.session.seeded = s.session.seeded ∧ t.session.bitCount = s.session.bitCount ∧ t.session.shift = s.session.shift ∧
    t = { s with session := t.session } ∧ SameBuffers s t

/-- `DEC.BIT` (R110 to R113): the period takes the smaller of itself and the delta, the bit is 1 exactly when twice the delta is at
least three times that, and the assembler extends a byte, closes one into `raw_bytes`, or drops the bit of a full session. -/
def Obligations.AcceptedEdgeYieldsOneBit : Prop :=
  ∀ (s : State) (d p : Nat) (v : Bool),
    d = elapsed s.params s.now s.session.lastEdgeTime → p = min s.session.nominalPeriod d →
    (v = true ↔ 3 * p ≤ 2 * d) →
    ∃ t, exec .decBit s = .next t ∧
      t.session.nominalPeriod = p ∧ t.session.lastEdgeTime = s.params.stamp s.ports.now ∧ t.session.lastLevel = s.ports.rxLevel ∧
      t.session.seeded = s.session.seeded ∧ t.session.calibrating = s.session.calibrating ∧
      t = { s with session := t.session, mem := { s.mem with rawBytes := t.mem.rawBytes } } ∧
      (8 * s.params.rawCap ≤ s.session.bitCount →
        t.session.bitCount = s.session.bitCount ∧ t.session.shift = s.session.shift ∧ SameBuffers s t) ∧
      (s.session.bitCount < 8 * s.params.rawCap →
        t.session.bitCount = s.session.bitCount + 1 ∧
        (s.session.bitCount % 8 ≠ 7 →
          t.session.shift.toNat = (2 * s.session.shift.toNat + v.toNat) % 256 ∧ SameBuffers s t) ∧
        (s.session.bitCount % 8 = 7 →
          t.session.shift = 0#8 ∧
          (t.mem.readByte .rawBytes (s.session.bitCount / 8)).toNat = (2 * s.session.shift.toNat + v.toNat) % 256 ∧
          ∀ name i, ¬ (name = .rawBytes ∧ i = s.session.bitCount / 8) →
            t.mem.readByte name i = s.mem.readByte name i))

/-- Eight accepted bits, the first of them bit 7, close one byte of the buffer (R51, R53, R113). -/
def Obligations.EightBitsCloseAByte : Prop :=
  ∀ (P : Params) (x : Session) (cs : List Host.Cell) (b : Byte), x.bitCount % 8 = 0 → x.bitCount < 8 * P.rawCap →
    ∃ (y : Session) (cs' : List Host.Cell),
      (y, cs') = (bitsOf b).foldl (fun z v => (z.1.accumulate P v, z.1.accumulateCells P z.2 v)) (x, cs) ∧
      y.bitCount = x.bitCount + 8 ∧ y.shift = 0#8 ∧
      Cells.read .rawBytes cs' (x.bitCount / 8) = b ∧
      (∀ i, i ≠ x.bitCount / 8 → Cells.read .rawBytes cs' i = Cells.read .rawBytes cs i)

/-- The period only shrinks (R42 item 8, R112, R117 item 2, R198): across any step that leaves a calibrated session calibrated,
`nominal_period` does not grow. -/
def Obligations.CalibratedPeriodNeverGrows : Prop :=
  ∀ s t : State, step s = .next t → s.session.calibrating = false → t.session.calibrating = false →
    t.session.nominalPeriod ≤ s.session.nominalPeriod

/-- `DEC.RESET` (R115): the session registers take their reset values; no cell is written and nothing else changes. -/
def Obligations.SessionResetClearsTheSession : Prop :=
  ∀ s : State, ∃ t, exec .decReset s = .next t ∧
    t.session.seeded = false ∧ t.session.calibrating = true ∧ t.session.nominalPeriod = 0 ∧
    t.session.lastEdgeTime = 0 ∧ t.session.lastLevel = s.params.idleLevel ∧ t.session.bitCount = 0 ∧
    t.session.shift = 0#8 ∧ t.closedBytes = [] ∧
    t = { s with session := t.session } ∧ t.mem = s.mem ∧ SameBuffers s t

/-- `DEC.IDLE` (R114): it takes the arm that the gate and the parse select. -/
def Obligations.IdleTimeoutTakesTheArmOfItsResult : Prop :=
  ∀ s : State,
    (∃ t, exec .decIdle s = .next t) ∧
    ((s.session.bitCount / 8 < s.params.minBytes ∨ s.session.nominalPeriod ≤ s.params.tNoise) → exec .decIdle s = exec .rDiscard s) ∧
    (s.params.minBytes ≤ s.session.bitCount / 8 → s.params.tNoise < s.session.nominalPeriod →
      (∀ f, parseFrame s.params s.closedBytes = .ok f → exec .decIdle s = exec .rAccept s) ∧
      (parseFrame s.params s.closedBytes = .err .signatureMismatch → exec .decIdle s = exec .rRejectSig s) ∧
      (parseFrame s.params s.closedBytes = .err .truncated → exec .decIdle s = exec .rRejectTrunc s) ∧
      (parseFrame s.params s.closedBytes = .err .checksumMismatch → exec .decIdle s = exec .rRejectChk s))

/-- The tick-level decoder is the decoder as a function of events (R116): in a listening receiver's tick with an edge event and no
idle-timeout event the session value becomes `DecEdge`'s, and with neither event it stays. -/
def Obligations.ListeningTickIsDecEdge : Prop :=
  ∀ (s t : State) (p : Ports) (rest : List Stimulus), s.stimuli = .tick p :: rest → s.role = .receiver → s.st = 0#2 →
    p.rst = false →
    ¬ (s.session.seeded = true ∧ s.params.tIdle ≤ elapsed s.params p.now s.frontEnd.lastChangeTime) → step s = .next t →
    t.st = 0#2 ∧
    (p.rxLevel ≠ s.frontEnd.prevSample → t.sessionValue = decEdge s.params s.sessionValue (s.params.stamp p.now) p.rxLevel) ∧
    (p.rxLevel = s.frontEnd.prevSample → t.sessionValue = s.sessionValue)

/-- At the idle-timeout event of a listening receiver the tick does what `DecIdle` says of the session value (R114, R116): a hand-off
is parsed and its result recorded, a discard is `NOISE_ONLY_SESSION`; the session is reset, and seeded again by a coincident edge
unless a frame was accepted. -/
def Obligations.IdleTickIsDecIdle : Prop :=
  ∀ (s t : State) (p : Ports) (rest : List Stimulus), s.stimuli = .tick p :: rest → s.role = .receiver → s.st = 0#2 →
    p.rst = false → s.session.seeded = true → s.params.tIdle ≤ elapsed s.params p.now s.frontEnd.lastChangeTime → step s = .next t →
    t.outcomeStrobe = true ∧
    (match (decIdleEvent s.params s.sessionValue).1 with
      | .discard => t.outcome = .noiseOnlySession ∧ t.st = 0#2
      | .handoff bytes =>
        match parseFrame s.params bytes with
        | .ok f => t.outcome = .frameOk ∧ t.st = 1#2 ∧ t.frame = { valid := true, len := f.length, checksum := f.checksum } ∧
            t.framePayloadBytes = f.payload
        | .err k => t.outcome = k.kind.code ∧ t.st = 0#2) ∧
    t.session =
      (if t.st = 0#2 ∧ p.rxLevel ≠ s.frontEnd.prevSample then (decIdleEvent s.params s.sessionValue).2.regs.seedWith (s.params.stamp p.now) p.rxLevel
       else (decIdleEvent s.params s.sessionValue).2.regs)

/-- The noise-free receive view of a transmission (R99), under the premises of R9 and the ranges of log 5: fed the exact edges of
`ENC.FRAME(bytes)`, from any start time and whatever the buffer's cells held, an empty session decodes exactly `bytes`, with period
`Scale(T_HALF)`, and ends at level idle. -/
def Obligations.NoiseFreeTransmissionIsDecoded : Prop :=
  ∀ (P : Params) (bytes : List Byte) (t0 : Nat) (cells : List Host.Cell), P.premises = true → P.fits = true →
    bytes.length ≤ P.rawCap →
    ∃ x : SessionValue, x = decEdges P { regs := Session.empty P, cells := cells } (edgesFrom P t0 (segments P bytes)) ∧
      x.bytes = bytes ∧ x.regs.bitCount = 8 * bytes.length ∧ x.regs.shift = 0#8 ∧
      x.regs.nominalPeriod = P.scaledHalf ∧ x.regs.seeded = true ∧ x.regs.calibrating = false ∧
      x.regs.lastLevel = P.idleLevel ∧ x.regs.lastEdgeTime = P.stamp (t0 + (total P bytes - P.tTail))

/-- Jitter within the bounds of R193 is absorbed: with short intervals in `[a, b]` and long ones of at least `c`, whatever period the
session has learned from short intervals, it passes the gate, every short interval classifies as 0 and every long one as 1. At the
defaults the bounds hold of a symmetric error exactly up to 297 µs. -/
def Obligations.JitterWithinTheBoundIsAbsorbed : Prop :=
  (∀ (P : Params) (a b c cal p d l : Nat), P.marginNum < P.marginDen → b < 2 ^ P.tsW →
    P.tNoise < scale P a → 2 * b < 3 * scale P a → 3 * scale P b ≤ 2 * c →
    a ≤ cal → cal ≤ b → (p = scale P cal ∨ (p ≤ scale P cal ∧ a ≤ p ∧ p ≤ b)) → a ≤ d → d ≤ b → c ≤ l →
    P.tNoise < p ∧ classify d (minUpdate p d) = false ∧ P.tNoise < minUpdate p d ∧ classify l (minUpdate p l) = true) ∧
  (∀ e, e ≤ 2000 →
    ((Params.default.tNoise < scale Params.default (2000 - e) ∧ 2 * (2000 + e) < 3 * scale Params.default (2000 - e) ∧
      3 * scale Params.default (2000 + e) ≤ 2 * (4000 - e)) ↔ e ≤ 297))

/-! ### The framer -/

/-- `FRM.XOR` (R126): the fold, its corner cases, and its example. -/
def Obligations.ChecksumIsTheExclusiveOr : Prop :=
  (∀ (x : List Byte) (s : State), ∃ t, exec (.frmXor x) s = .next t ∧ t.result = .byte (xorBytes x) ∧ SameMachine s t) ∧
  xorBytes [] = 0#8 ∧
  (∀ (x : List Byte) (b : Byte), xorBytes (x ++ [b]) = xorBytes x ^^^ b) ∧
  (∀ b : Byte, xorBytes [b] = b ∧ xorBytes [b, b] = 0#8) ∧
  (∀ x y : List Byte, x.Perm y → xorBytes x = xorBytes y) ∧
  xorBytes [0x48#8, 0x65#8, 0x6C#8, 0x6C#8, 0x6F#8] = 0x42#8

/-- `FRM.BUILD` and `FRM.SERIALIZE` (R127, R128): the frame of a payload, and the bytes of a frame. -/
def Obligations.BuildAndSerialise : Prop :=
  (∀ (payload : List Byte) (s : State), payload.length ≤ 255 → ∃ t f, exec (.frmBuild payload) s = .next t ∧ t.result = .frame f ∧
    f.length.toNat = payload.length ∧ f.payload = payload ∧ f.checksum = xorBytes payload ∧ frameValid f = true ∧ SameMachine s t) ∧
  (∀ (f : Frame) (s : State), ∃ t, exec (.frmSerialize f) s = .next t ∧
    t.result = .bytes (s.params.sig ++ [f.length] ++ f.payload ++ [f.checksum]) ∧ SameMachine s t)

/-- `FRM.PARSE` (R129): its five tests in order, and the frame it gives. -/
def Obligations.ParseTestsInOrder : Prop :=
  ∀ (bytes : List Byte) (s : State), ∃ t r, exec (.frmParse bytes) s = .next t ∧ t.result = .parsed r ∧ SameMachine s t ∧
    (bytes.length < 4 → r = .err .truncated) ∧
    (4 ≤ bytes.length → bytes.take 4 ≠ s.params.sig → r = .err .signatureMismatch) ∧
    (bytes = s.params.sig → r = .err .truncated) ∧
    (∀ (l : Byte) (rest : List Byte), bytes = s.params.sig ++ [l] ++ rest →
      (rest.length < l.toNat + 1 → r = .err .truncated) ∧
      (∀ (payload tail : List Byte) (c : Byte), rest = payload ++ [c] ++ tail → payload.length = l.toNat →
        (xorBytes payload ≠ c → r = .err .checksumMismatch) ∧
        (xorBytes payload = c → r = .ok { length := l, payload := payload, checksum := c })))

/-- The framer's properties (R132): the round trip of every payload, validity of every parsed frame, detection of every single-bit
change of payload, signature or checksum, and that nothing beyond the declared frame is read. -/
def Obligations.FramerProperties : Prop :=
  ∀ P : Params,
    (∀ p : List Byte, p.length ≤ 255 → parseFrame P (serialize P (buildFrame p)) = .ok (buildFrame p)) ∧
    (∀ (bytes : List Byte) (f : Frame), parseFrame P bytes = .ok f →
      frameValid f = true ∧ bytes.take (f.length.toNat + 6) = serialize P f) ∧
    (∀ (f : Frame) (i k : Nat) (b : Byte), frameValid f = true → f.payload[i]? = some b → k < 8 →
      parseFrame P ((serialize P f).set (5 + i) (b ^^^ BitVec.twoPow 8 k)) = .err .checksumMismatch) ∧
    (∀ (f : Frame) (i k : Nat) (b : Byte), frameValid f = true → i < 4 → (serialize P f)[i]? = some b → k < 8 →
      parseFrame P ((serialize P f).set i (b ^^^ BitVec.twoPow 8 k)) = .err .signatureMismatch) ∧
    (∀ (f : Frame) (k : Nat), frameValid f = true → k < 8 →
      parseFrame P ((serialize P f).set (5 + f.length.toNat) (f.checksum ^^^ BitVec.twoPow 8 k)) = .err .checksumMismatch) ∧
    (∀ (bytes tail : List Byte) (f : Frame), parseFrame P bytes = .ok f → parseFrame P (bytes ++ tail) = .ok f)

/-- A full `raw_bytes` drops accepted bits, and nothing beyond index 260 can change a parse: so no parse can tell (R57), for every
capacity that holds the longest frame (R8). -/
def Obligations.ParseReadsNothingBeyondCapacity : Prop :=
  (∀ (P : Params) (x : Session) (cs : List Host.Cell) (v : Bool), 8 * P.rawCap ≤ x.bitCount →
    x.accumulate P v = x ∧ x.accumulateCells P cs v = cs) ∧
  (∀ (P : Params) (bytes : List Byte), 261 ≤ P.rawCap → parseFrame P (bytes.take P.rawCap) = parseFrame P bytes) ∧
  (∀ (P : Params) (bytes : List Byte), parseFrame P (bytes.take 261) = parseFrame P bytes)

/-- `CRED.SPLIT` (R131): the split on the first colon; without one, the error. -/
def Obligations.CredentialsSplitOnTheFirstColon : Prop :=
  (∀ (a b : List Byte) (s : State), s.params.colon ∉ a → ∃ t, exec (.credSplit (a ++ [s.params.colon] ++ b)) s = .next t ∧
    t.result = .split (.ok a b) ∧ SameMachine s t) ∧
  (∀ (p : List Byte) (s : State), s.params.colon ∉ p → ∃ t, exec (.credSplit p) s = .next t ∧ t.result = .split .err ∧ SameMachine s t)

/-! ### The Receiver -/

/-- The raising operations at the end of a session (R152, R154, R155, R156, R166, R170): the outcome and its code, the strobe, an empty
session or one seeded by the tick's own edge, listening again; no frame, no credential and no byte changes. -/
def Obligations.RejectingOperationsRaiseAndListen : Prop :=
  ∀ i k code, (i, k, code) ∈ [(Instr.rDiscard, OutcomeCode.noiseOnlySession, 5#3), (.rRejectSig, .signatureMismatch, 2#3),
      (.rRejectTrunc, .truncated, 4#3), (.rRejectChk, .checksumMismatch, 3#3)] →
    ∀ s : State, ∃ t, exec i s = .next t ∧
      t.outcome = k ∧ t.outcome.bits = code ∧ t.outcomeStrobe = true ∧ t.st = 0#2 ∧
      (s.ports.rxLevel = s.frontEnd.prevSample → t.session = Session.empty s.params) ∧
      (s.ports.rxLevel ≠ s.frontEnd.prevSample →
        t.session = { Session.empty s.params with seeded := true, lastEdgeTime := s.params.stamp s.ports.now, lastLevel := s.ports.rxLevel }) ∧
      t = { s with outcome := t.outcome, outcomeStrobe := t.outcomeStrobe, session := t.session, st := t.st } ∧
      SameBuffers s t

/-- `R.ACCEPT` (R153): the parsed frame fills the frame register and its cells; the session is empty; the device applies. -/
def Obligations.AcceptTakesTheFrame : Prop :=
  ∀ (s : State) (f : Frame), parseFrame s.params s.closedBytes = .ok f → ∃ t, exec .rAccept s = .next t ∧
    t.frame.valid = true ∧ t.frame.len = f.length ∧ t.frame.checksum = f.checksum ∧ t.framePayloadBytes = f.payload ∧
    t.session = Session.empty s.params ∧ t.outcome = .frameOk ∧ t.outcome.bits = 1#3 ∧ t.outcomeStrobe = true ∧ t.st = 1#2 ∧
    t = { s with frame := t.frame, session := t.session, outcome := t.outcome, outcomeStrobe := t.outcomeStrobe, st := t.st,
                 mem := { s.mem with framePayload := t.mem.framePayload } } ∧
    SameBuffersBut .framePayload f.length.toNat s t

/-- `R.APPLY` (R157): the split payload fills the credential registers and their cells; the device is done. -/
def Obligations.ApplyHandsTheCredentialsOver : Prop :=
  ∀ (s : State) (a b : List Byte), s.framePayloadBytes = a ++ [s.params.colon] ++ b → s.params.colon ∉ a → ∃ t, exec .rApply s = .next t ∧
    t.cred.valid = true ∧ t.cred.ssidLen.toNat = a.length ∧ t.cred.passwordLen.toNat = b.length ∧
    t.ssidBytes = a ∧ t.passwordBytes = b ∧
    t.frame = { s.frame with valid := false } ∧ t.st = 2#2 ∧ (s.role = .receiver → t.done = true) ∧
    t = { s with cred := t.cred, frame := t.frame, st := t.st,
                 mem := { s.mem with ssid := t.mem.ssid, password := t.mem.password } } ∧
    (∀ name i, ¬ (name = .ssid ∧ i < a.length) → ¬ (name = .password ∧ i < b.length) →
      t.mem.readByte name i = s.mem.readByte name i)

/-- `R.CREDERR` (R158, R170): the outcome and the strobe, an empty session, listening again, the frame no longer valid; no credential
and no byte changes. -/
def Obligations.MissingColonIsACredentialError : Prop :=
  ∀ s : State, ∃ t, exec .rCrederr s = .next t ∧
    t.outcome = .credentialFormatError ∧ t.outcome.bits = 6#3 ∧ t.outcomeStrobe = true ∧ t.session = Session.empty s.params ∧ t.st = 0#2 ∧
    t.frame = { s.frame with valid := false } ∧ t.cred = s.cred ∧
    t = { s with outcome := t.outcome, outcomeStrobe := t.outcomeStrobe, session := t.session, st := t.st, frame := t.frame } ∧
    SameBuffers s t

/-- The model's stops (log 10): `R.ACCEPT` and `R.APPLY` performed by themselves stop exactly where their operand does not exist,
and there their pattern does not select them (R76, R77). -/
def Obligations.OperandlessOperationsStopAndAreNeverSelected : Prop :=
  ∀ s : State,
    ((∃ k, parseFrame s.params s.closedBytes = .err k) ↔ exec .rAccept s = .fault .noFrameToAccept) ∧
    (s.params.colon ∉ s.framePayloadBytes ↔ exec .rApply s = .fault .noColonToApply) ∧
    (decodeTick s.sel = .ok .rAccept → ∃ f, parseFrame s.params s.closedBytes = .ok f) ∧
    (decodeTick s.sel = .ok .rApply → s.params.colon ∈ s.framePayloadBytes)

/-- The Receiver's transition table (R149), row by row: which operation a tick performs and where it goes. -/
def Obligations.ReceiverFollowsItsTransitionTable : Prop :=
  ∀ (s : State) (p : Ports) (rest : List Stimulus) (edge idle gate : Prop), s.stimuli = .tick p :: rest → s.role = .receiver →
    p.rst = false → (edge ↔ p.rxLevel ≠ s.frontEnd.prevSample) →
    (idle ↔ s.params.tIdle ≤ elapsed s.params p.now s.frontEnd.lastChangeTime) →
    (gate ↔ s.params.minBytes ≤ s.session.bitCount / 8 ∧ s.params.tNoise < s.session.nominalPeriod) →
    ∃ t, step s = .next t ∧ t.role = .receiver ∧
      (s.st = 0#2 →
        (s.session.seeded = false → ¬ edge → decode s.params s.fetch.2 = .ok .rQuiet ∧ t.st = 0#2) ∧
        (s.session.seeded = false → edge → decode s.params s.fetch.2 = .ok .decSeed ∧ t.st = 0#2) ∧
        (s.session.seeded = true → ¬ idle → ¬ edge → decode s.params s.fetch.2 = .ok .rInframe ∧ t.st = 0#2) ∧
        (s.session.seeded = true → ¬ idle → edge → s.session.calibrating = true →
          decode s.params s.fetch.2 = .ok .decCal ∧ t.st = 0#2) ∧
        (s.session.seeded = true → ¬ idle → edge → s.session.calibrating = false →
          elapsed s.params p.now s.session.lastEdgeTime < s.params.tNoise → decode s.params s.fetch.2 = .ok .decReject ∧ t.st = 0#2) ∧
        (s.session.seeded = true → ¬ idle → edge → s.session.calibrating = false →
          s.params.tNoise ≤ elapsed s.params p.now s.session.lastEdgeTime → decode s.params s.fetch.2 = .ok .decBit ∧ t.st = 0#2) ∧
        (s.session.seeded = true → idle → ¬ gate → decode s.params s.fetch.2 = .ok .rDiscard ∧ t.st = 0#2) ∧
        (s.session.seeded = true → idle → gate → parseFrame s.params s.closedBytes = .err .signatureMismatch →
          decode s.params s.fetch.2 = .ok .rRejectSig ∧ t.st = 0#2) ∧
        (s.session.seeded = true → idle → gate → parseFrame s.params s.closedBytes = .err .truncated →
          decode s.params s.fetch.2 = .ok .rRejectTrunc ∧ t.st = 0#2) ∧
        (s.session.seeded = true → idle → gate → parseFrame s.params s.closedBytes = .err .checksumMismatch →
          decode s.params s.fetch.2 = .ok .rRejectChk ∧ t.st = 0#2) ∧
        (∀ f, s.session.seeded = true → idle → gate → parseFrame s.params s.closedBytes = .ok f →
          decode s.params s.fetch.2 = .ok .rAccept ∧ t.st = 1#2)) ∧
      (s.st = 1#2 → s.params.colon ∈ s.framePayloadBytes → decode s.params s.fetch.2 = .ok .rApply ∧ t.st = 2#2) ∧
      (s.st = 1#2 → s.params.colon ∉ s.framePayloadBytes → decode s.params s.fetch.2 = .ok .rCrederr ∧ t.st = 0#2) ∧
      (s.st = 2#2 → decode s.params s.fetch.2 = .ok .rDone ∧ t.st = 2#2) ∧
      (s.st = 3#2 → decode s.params s.fetch.2 = .ok .rRsvd ∧ t.st = 3#2)

/-- A Receiver ignores `trigger`, `tx_payload` and `tx_len` (R180, R194), and never transmits: the transmit registers stay. -/
def Obligations.ReceiverIgnoresTheSendersInputs : Prop :=
  ∀ (s t : State) (p : Ports) (trig : Bool) (payload : List Byte) (len : Byte) (rest : List Stimulus),
    s.role = .receiver → p.rst = false → s.stimuli = .tick p :: rest → step s = .next t →
    t.tx = s.tx ∧
    step { s with stimuli := .tick { p with trigger := trig, txPayload := payload, txLen := len } :: rest } =
      .next { t with ports := { p with trigger := trig, txPayload := payload, txLen := len } }

/-- The terminal states (R148, R159, R160): without a reset a tick changes nothing there but the receiver's front end, the inputs and
the strobe, which is 0. -/
def Obligations.TerminalStatesAreLeftOnlyByReset : Prop :=
  ∀ (s t : State) (p : Ports) (rest : List Stimulus), s.done = true → s.stimuli = .tick p :: rest → p.rst = false →
    step s = .next t →
    t.done = true ∧ t.outcomeStrobe = false ∧
    t = { s with frontEnd := t.frontEnd, ports := p, stimuli := rest, outcomeStrobe := false } ∧
    (s.role = .sender → t.frontEnd = s.frontEnd) ∧ SameBuffers s t

/-! ### Every step -/

/-- R42, with R160 and R163 item 4: the invariant holds after reset and after every tick, and the calibrated period never grows. Parts of
`Inv` are the model's own: the ranges of the parameters, beyond R9 (log 5, DEDUCED), the canonical form of the buffers (log 4), and the
registers of parametric width as numbers that fit it (log 20). -/
def Obligations.EveryStepKeepsTheInvariant : Prop :=
  (∀ (P : Params) (r : Role), P.fits = true → Inv (State.resetAs P r)) ∧
  (∀ s t : State, Inv s → step s = .next t →
    Inv t ∧
    (s.session.calibrating = false → t.session.calibrating = false → t.session.nominalPeriod ≤ s.session.nominalPeriod))

/-- The state after reset satisfies the invariant, for either strap (R41, R42), and the default parameters satisfy the premises of R9.
The strap and the parameters of `State.reset` itself are the model's choice (log 3, log 5), and so are the parts of `Inv` that rest on
log 4, log 5 and log 20. -/
def Obligations.ResetSatisfiesTheInvariant : Prop :=
  Inv State.reset ∧ (∀ r : Role, Inv (State.resetAs Params.default r)) ∧
  Params.default.premises = true ∧ Params.default.fits = true ∧ Params.default.bcW = 12

/-- Every operation and every step keeps the canonical form of the buffers (R50, R55), in every state; the form is the model's (log 4). -/
def Obligations.BuffersStayCanonical : Prop :=
  (∀ (i : Instr) (s t : State), s.mem.wf = true → exec i s = .next t → t.mem.wf = true) ∧
  (∀ s t : State, s.mem.wf = true → step s = .next t → t.mem.wf = true)

/-- The role never changes but at a reset tick (R16, R140). -/
def Obligations.RoleChangesOnlyAtReset : Prop :=
  ∀ s t : State, step s = .next t → t.role ≠ s.role → s.fetch.1.ports.rst = true ∧ t.role = s.fetch.1.ports.roleStrap

/-- Properties of the role machines (R163): a Sender's state never decreases and advances by at most one; the credential registers of R32,
the bytes of `ssid` and `password` among them, change only in a receiver's `R_APPLY` tick that finds a colon; no error kind changes the
payload, the credentials or their cells. -/
def Obligations.RoleMachineProperties : Prop :=
  (∀ (s t : State) (p : Ports) (rest : List Stimulus), s.stimuli = .tick p :: rest → p.rst = false → step s = .next t →
    (s.role = .sender → s.st.toNat ≤ t.st.toNat ∧ t.st.toNat ≤ s.st.toNat + 1) ∧
    ((t.cred ≠ s.cred ∨
        (∃ i, t.mem.readByte .ssid i ≠ s.mem.readByte .ssid i) ∨ (∃ i, t.mem.readByte .password i ≠ s.mem.readByte .password i)) →
      s.role = .receiver ∧ s.st = 1#2 ∧ s.params.colon ∈ s.framePayloadBytes ∧ t.cred.valid = true ∧ t.st = 2#2)) ∧
  (∀ i ∈ [Instr.rDiscard, .rRejectSig, .rRejectTrunc, .rRejectChk, .rCrederr], ∀ s t : State, exec i s = .next t →
    t.cred = s.cred ∧ t.mem = s.mem ∧ t.frame.len = s.frame.len ∧ t.frame.checksum = s.frame.checksum)

/-- End to end (R99, R132, X1), under the premises of R9 and the ranges of log 5: a listening receiver with an empty session and a line at
rest, given the ticks of `SEND` of any payload at any start time, ends with exactly that payload accepted. -/
def Obligations.SentPayloadIsReceived : Prop :=
  ∀ (s : State) (c : ScriptContext) (t0 : Nat) (payload : List Byte), payload.length ≤ 255 →
    s.params.premises = true → s.params.fits = true →
    s.role = .receiver → s.st = 0#2 → s.session = Session.empty s.params → s.frontEnd.prevSample = s.params.idleLevel →
    s.stimuli = [] →
    ∃ t, ticks s (c.line s.params (.send t0 payload)).2 = .next t ∧
      t.st = 1#2 ∧ t.frame.valid = true ∧ t.frame.len.toNat = payload.length ∧ t.frame.checksum = xorBytes payload ∧
      t.framePayloadBytes = payload ∧ t.outcome = .frameOk ∧ t.outcomeStrobe = true ∧ t.session = Session.empty s.params

/-- The parameters are no state (R43): no operation and no step changes them (log 5). -/
def Obligations.ParametersNeverChange : Prop :=
  (∀ (i : Instr) (s t : State), exec i s = .next t → t.params = s.params) ∧
  (∀ s t : State, step s = .next t → t.params = s.params)

/-- Two devices on the ideal channel (R184): a tick of the system always answers, each device makes its own tick at the common time, and the
receiver's line is the sender's output before the tick. That each device has a reset input of its own and a strap tied to its role, and so
that a system of one device of each role stays one whichever of them is reset, is the model's reading of R184 (log 21, DEDUCED). -/
def Obligations.SystemTickIsOneTickOfEachDevice : Prop :=
  ∀ (y : System) (q : SystemPorts), ∃ z, y.tick q = .next z ∧
    Sys2Proof.Machine.tick y.sender { q.sender with now := q.now, roleStrap := .sender } = .next z.sender ∧
    Sys2Proof.Machine.tick y.receiver { q.receiver with now := q.now, roleStrap := .receiver, rxLevel := y.sender.tx.level } =
      .next z.receiver ∧
    (y.wf = true → z.wf = true) ∧
    (q.sender.rst = true → q.receiver.rst = true → z.wf = true)
end

