-- ==== Sys2Proof/Laws/State.lean ====
section
/-! SUPPORT. For every update of the state, what it does to every field: one lemma each, true by `rfl`. Later proofs rewrite with
these and never unfold an update. -/

namespace Sys2Proof.Machine

/-! ### `State.beginTick` -/

@[simp] theorem State.beginTick_params (s : State) (p : Ports) : (s.beginTick p).params = s.params := rfl
@[simp] theorem State.beginTick_role (s : State) (p : Ports) : (s.beginTick p).role = s.role := rfl
@[simp] theorem State.beginTick_st (s : State) (p : Ports) : (s.beginTick p).st = s.st := rfl
@[simp] theorem State.beginTick_session (s : State) (p : Ports) : (s.beginTick p).session = s.session := rfl
@[simp] theorem State.beginTick_frontEnd (s : State) (p : Ports) : (s.beginTick p).frontEnd = s.frontEnd := rfl
@[simp] theorem State.beginTick_frame (s : State) (p : Ports) : (s.beginTick p).frame = s.frame := rfl
@[simp] theorem State.beginTick_tx (s : State) (p : Ports) : (s.beginTick p).tx = s.tx := rfl
@[simp] theorem State.beginTick_cred (s : State) (p : Ports) : (s.beginTick p).cred = s.cred := rfl
@[simp] theorem State.beginTick_outcome (s : State) (p : Ports) : (s.beginTick p).outcome = s.outcome := rfl
@[simp] theorem State.beginTick_mem (s : State) (p : Ports) : (s.beginTick p).mem = s.mem := rfl
@[simp] theorem State.beginTick_outcomeStrobe (s : State) (p : Ports) : (s.beginTick p).outcomeStrobe = false := rfl
@[simp] theorem State.beginTick_ports (s : State) (p : Ports) : (s.beginTick p).ports = p := rfl
@[simp] theorem State.beginTick_stimuli (s : State) (p : Ports) : (s.beginTick p).stimuli = s.stimuli := rfl
@[simp] theorem State.beginTick_draws (s : State) (p : Ports) : (s.beginTick p).draws = s.draws := rfl
@[simp] theorem State.beginTick_result (s : State) (p : Ports) : (s.beginTick p).result = s.result := rfl

/-! ### `State.report` -/

@[simp] theorem State.report_params (s : State) (c : OutcomeCode) : (s.report c).params = s.params := rfl
@[simp] theorem State.report_role (s : State) (c : OutcomeCode) : (s.report c).role = s.role := rfl
@[simp] theorem State.report_st (s : State) (c : OutcomeCode) : (s.report c).st = s.st := rfl
@[simp] theorem State.report_session (s : State) (c : OutcomeCode) : (s.report c).session = s.session := rfl
@[simp] theorem State.report_frontEnd (s : State) (c : OutcomeCode) : (s.report c).frontEnd = s.frontEnd := rfl
@[simp] theorem State.report_frame (s : State) (c : OutcomeCode) : (s.report c).frame = s.frame := rfl
@[simp] theorem State.report_tx (s : State) (c : OutcomeCode) : (s.report c).tx = s.tx := rfl
@[simp] theorem State.report_cred (s : State) (c : OutcomeCode) : (s.report c).cred = s.cred := rfl
@[simp] theorem State.report_outcome (s : State) (c : OutcomeCode) : (s.report c).outcome = c := rfl
@[simp] theorem State.report_mem (s : State) (c : OutcomeCode) : (s.report c).mem = s.mem := rfl
@[simp] theorem State.report_outcomeStrobe (s : State) (c : OutcomeCode) : (s.report c).outcomeStrobe = true := rfl
@[simp] theorem State.report_ports (s : State) (c : OutcomeCode) : (s.report c).ports = s.ports := rfl
@[simp] theorem State.report_stimuli (s : State) (c : OutcomeCode) : (s.report c).stimuli = s.stimuli := rfl
@[simp] theorem State.report_draws (s : State) (c : OutcomeCode) : (s.report c).draws = s.draws := rfl
@[simp] theorem State.report_result (s : State) (c : OutcomeCode) : (s.report c).result = s.result := rfl

/-! ### `State.sessionReset` -/

@[simp] theorem State.sessionReset_params (s : State) : (s.sessionReset).params = s.params := rfl
@[simp] theorem State.sessionReset_role (s : State) : (s.sessionReset).role = s.role := rfl
@[simp] theorem State.sessionReset_st (s : State) : (s.sessionReset).st = s.st := rfl
@[simp] theorem State.sessionReset_session (s : State) : (s.sessionReset).session = Session.empty s.params := rfl
@[simp] theorem State.sessionReset_frontEnd (s : State) : (s.sessionReset).frontEnd = s.frontEnd := rfl
@[simp] theorem State.sessionReset_frame (s : State) : (s.sessionReset).frame = s.frame := rfl
@[simp] theorem State.sessionReset_tx (s : State) : (s.sessionReset).tx = s.tx := rfl
@[simp] theorem State.sessionReset_cred (s : State) : (s.sessionReset).cred = s.cred := rfl
@[simp] theorem State.sessionReset_outcome (s : State) : (s.sessionReset).outcome = s.outcome := rfl
@[simp] theorem State.sessionReset_mem (s : State) : (s.sessionReset).mem = s.mem := rfl
@[simp] theorem State.sessionReset_outcomeStrobe (s : State) : (s.sessionReset).outcomeStrobe = s.outcomeStrobe := rfl
@[simp] theorem State.sessionReset_ports (s : State) : (s.sessionReset).ports = s.ports := rfl
@[simp] theorem State.sessionReset_stimuli (s : State) : (s.sessionReset).stimuli = s.stimuli := rfl
@[simp] theorem State.sessionReset_draws (s : State) : (s.sessionReset).draws = s.draws := rfl
@[simp] theorem State.sessionReset_result (s : State) : (s.sessionReset).result = s.result := rfl

/-! ### `State.raise` -/

@[simp] theorem State.raise_params (s : State) (k : ErrorKind) : (s.raise k).params = s.params := rfl
@[simp] theorem State.raise_role (s : State) (k : ErrorKind) : (s.raise k).role = s.role := rfl
@[simp] theorem State.raise_st (s : State) (k : ErrorKind) : (s.raise k).st = rListening := rfl
@[simp] theorem State.raise_session (s : State) (k : ErrorKind) : (s.raise k).session = Session.empty s.params := rfl
@[simp] theorem State.raise_frontEnd (s : State) (k : ErrorKind) : (s.raise k).frontEnd = s.frontEnd := rfl
@[simp] theorem State.raise_frame (s : State) (k : ErrorKind) : (s.raise k).frame = s.frame := rfl
@[simp] theorem State.raise_tx (s : State) (k : ErrorKind) : (s.raise k).tx = s.tx := rfl
@[simp] theorem State.raise_cred (s : State) (k : ErrorKind) : (s.raise k).cred = s.cred := rfl
@[simp] theorem State.raise_outcome (s : State) (k : ErrorKind) : (s.raise k).outcome = k.code := rfl
@[simp] theorem State.raise_mem (s : State) (k : ErrorKind) : (s.raise k).mem = s.mem := rfl
@[simp] theorem State.raise_outcomeStrobe (s : State) (k : ErrorKind) : (s.raise k).outcomeStrobe = true := rfl
@[simp] theorem State.raise_ports (s : State) (k : ErrorKind) : (s.raise k).ports = s.ports := rfl
@[simp] theorem State.raise_stimuli (s : State) (k : ErrorKind) : (s.raise k).stimuli = s.stimuli := rfl
@[simp] theorem State.raise_draws (s : State) (k : ErrorKind) : (s.raise k).draws = s.draws := rfl
@[simp] theorem State.raise_result (s : State) (k : ErrorKind) : (s.raise k).result = s.result := rfl

/-! ### `State.seedNow` -/

@[simp] theorem State.seedNow_params (s : State) : (s.seedNow).params = s.params := rfl
@[simp] theorem State.seedNow_role (s : State) : (s.seedNow).role = s.role := rfl
@[simp] theorem State.seedNow_st (s : State) : (s.seedNow).st = s.st := rfl
@[simp] theorem State.seedNow_session (s : State) : (s.seedNow).session = s.session.seedWith s.now s.ports.rxLevel := rfl
@[simp] theorem State.seedNow_frontEnd (s : State) : (s.seedNow).frontEnd = s.frontEnd := rfl
@[simp] theorem State.seedNow_frame (s : State) : (s.seedNow).frame = s.frame := rfl
@[simp] theorem State.seedNow_tx (s : State) : (s.seedNow).tx = s.tx := rfl
@[simp] theorem State.seedNow_cred (s : State) : (s.seedNow).cred = s.cred := rfl
@[simp] theorem State.seedNow_outcome (s : State) : (s.seedNow).outcome = s.outcome := rfl
@[simp] theorem State.seedNow_mem (s : State) : (s.seedNow).mem = s.mem := rfl
@[simp] theorem State.seedNow_outcomeStrobe (s : State) : (s.seedNow).outcomeStrobe = s.outcomeStrobe := rfl
@[simp] theorem State.seedNow_ports (s : State) : (s.seedNow).ports = s.ports := rfl
@[simp] theorem State.seedNow_stimuli (s : State) : (s.seedNow).stimuli = s.stimuli := rfl
@[simp] theorem State.seedNow_draws (s : State) : (s.seedNow).draws = s.draws := rfl
@[simp] theorem State.seedNow_result (s : State) : (s.seedNow).result = s.result := rfl

/-! ### `State.returning` -/

@[simp] theorem State.returning_params (s : State) (r : FuncResult) : (s.returning r).params = s.params := rfl
@[simp] theorem State.returning_role (s : State) (r : FuncResult) : (s.returning r).role = s.role := rfl
@[simp] theorem State.returning_st (s : State) (r : FuncResult) : (s.returning r).st = s.st := rfl
@[simp] theorem State.returning_session (s : State) (r : FuncResult) : (s.returning r).session = s.session := rfl
@[simp] theorem State.returning_frontEnd (s : State) (r : FuncResult) : (s.returning r).frontEnd = s.frontEnd := rfl
@[simp] theorem State.returning_frame (s : State) (r : FuncResult) : (s.returning r).frame = s.frame := rfl
@[simp] theorem State.returning_tx (s : State) (r : FuncResult) : (s.returning r).tx = s.tx := rfl
@[simp] theorem State.returning_cred (s : State) (r : FuncResult) : (s.returning r).cred = s.cred := rfl
@[simp] theorem State.returning_outcome (s : State) (r : FuncResult) : (s.returning r).outcome = s.outcome := rfl
@[simp] theorem State.returning_mem (s : State) (r : FuncResult) : (s.returning r).mem = s.mem := rfl
@[simp] theorem State.returning_outcomeStrobe (s : State) (r : FuncResult) : (s.returning r).outcomeStrobe = s.outcomeStrobe := rfl
@[simp] theorem State.returning_ports (s : State) (r : FuncResult) : (s.returning r).ports = s.ports := rfl
@[simp] theorem State.returning_stimuli (s : State) (r : FuncResult) : (s.returning r).stimuli = s.stimuli := rfl
@[simp] theorem State.returning_draws (s : State) (r : FuncResult) : (s.returning r).draws = s.draws := rfl
@[simp] theorem State.returning_result (s : State) (r : FuncResult) : (s.returning r).result = r := rfl

/-! ### `State.driveLine` -/

@[simp] theorem State.driveLine_params (s : State) : (s.driveLine).params = s.params := rfl
@[simp] theorem State.driveLine_role (s : State) : (s.driveLine).role = s.role := rfl
@[simp] theorem State.driveLine_st (s : State) : (s.driveLine).st = s.st := rfl
@[simp] theorem State.driveLine_session (s : State) : (s.driveLine).session = s.session := rfl
@[simp] theorem State.driveLine_frontEnd (s : State) : (s.driveLine).frontEnd = s.frontEnd := rfl
@[simp] theorem State.driveLine_frame (s : State) : (s.driveLine).frame = s.frame := rfl
@[simp] theorem State.driveLine_tx (s : State) : (s.driveLine).tx = { s.tx with level := levelAt s.params s.txFrameBytes s.txElapsed } := rfl
@[simp] theorem State.driveLine_cred (s : State) : (s.driveLine).cred = s.cred := rfl
@[simp] theorem State.driveLine_outcome (s : State) : (s.driveLine).outcome = s.outcome := rfl
@[simp] theorem State.driveLine_mem (s : State) : (s.driveLine).mem = s.mem := rfl
@[simp] theorem State.driveLine_outcomeStrobe (s : State) : (s.driveLine).outcomeStrobe = s.outcomeStrobe := rfl
@[simp] theorem State.driveLine_ports (s : State) : (s.driveLine).ports = s.ports := rfl
@[simp] theorem State.driveLine_stimuli (s : State) : (s.driveLine).stimuli = s.stimuli := rfl
@[simp] theorem State.driveLine_draws (s : State) : (s.driveLine).draws = s.draws := rfl
@[simp] theorem State.driveLine_result (s : State) : (s.driveLine).result = s.result := rfl

/-! ### `State.acceptFrame` -/

@[simp] theorem State.acceptFrame_params (s : State) (f : Frame) : (s.acceptFrame f).params = s.params := rfl
@[simp] theorem State.acceptFrame_role (s : State) (f : Frame) : (s.acceptFrame f).role = s.role := rfl
@[simp] theorem State.acceptFrame_st (s : State) (f : Frame) : (s.acceptFrame f).st = rApplying := rfl
@[simp] theorem State.acceptFrame_session (s : State) (f : Frame) : (s.acceptFrame f).session = Session.empty s.params := rfl
@[simp] theorem State.acceptFrame_frontEnd (s : State) (f : Frame) : (s.acceptFrame f).frontEnd = s.frontEnd := rfl
@[simp] theorem State.acceptFrame_frame (s : State) (f : Frame) : (s.acceptFrame f).frame = { valid := true, len := f.length, checksum := f.checksum } := rfl
@[simp] theorem State.acceptFrame_tx (s : State) (f : Frame) : (s.acceptFrame f).tx = s.tx := rfl
@[simp] theorem State.acceptFrame_cred (s : State) (f : Frame) : (s.acceptFrame f).cred = s.cred := rfl
@[simp] theorem State.acceptFrame_outcome (s : State) (f : Frame) : (s.acceptFrame f).outcome = .frameOk := rfl
@[simp] theorem State.acceptFrame_mem (s : State) (f : Frame) : (s.acceptFrame f).mem = s.mem.copyIn .framePayload f.payload := rfl
@[simp] theorem State.acceptFrame_outcomeStrobe (s : State) (f : Frame) : (s.acceptFrame f).outcomeStrobe = true := rfl
@[simp] theorem State.acceptFrame_ports (s : State) (f : Frame) : (s.acceptFrame f).ports = s.ports := rfl
@[simp] theorem State.acceptFrame_stimuli (s : State) (f : Frame) : (s.acceptFrame f).stimuli = s.stimuli := rfl
@[simp] theorem State.acceptFrame_draws (s : State) (f : Frame) : (s.acceptFrame f).draws = s.draws := rfl
@[simp] theorem State.acceptFrame_result (s : State) (f : Frame) : (s.acceptFrame f).result = s.result := rfl

/-! ### `State.applyCredentials` -/

@[simp] theorem State.applyCredentials_params (s : State) (a b : List Byte) : (s.applyCredentials a b).params = s.params := rfl
@[simp] theorem State.applyCredentials_role (s : State) (a b : List Byte) : (s.applyCredentials a b).role = s.role := rfl
@[simp] theorem State.applyCredentials_st (s : State) (a b : List Byte) : (s.applyCredentials a b).st = rFinished := rfl
@[simp] theorem State.applyCredentials_session (s : State) (a b : List Byte) : (s.applyCredentials a b).session = s.session := rfl
@[simp] theorem State.applyCredentials_frontEnd (s : State) (a b : List Byte) : (s.applyCredentials a b).frontEnd = s.frontEnd := rfl
@[simp] theorem State.applyCredentials_frame (s : State) (a b : List Byte) : (s.applyCredentials a b).frame = { s.frame with valid := false } := rfl
@[simp] theorem State.applyCredentials_tx (s : State) (a b : List Byte) : (s.applyCredentials a b).tx = s.tx := rfl
@[simp] theorem State.applyCredentials_cred (s : State) (a b : List Byte) : (s.applyCredentials a b).cred = { valid := true, ssidLen := BitVec.ofNat 8 a.length, passwordLen := BitVec.ofNat 8 b.length } := rfl
@[simp] theorem State.applyCredentials_outcome (s : State) (a b : List Byte) : (s.applyCredentials a b).outcome = s.outcome := rfl
@[simp] theorem State.applyCredentials_mem (s : State) (a b : List Byte) : (s.applyCredentials a b).mem = (s.mem.copyIn .ssid a).copyIn .password b := rfl
@[simp] theorem State.applyCredentials_outcomeStrobe (s : State) (a b : List Byte) : (s.applyCredentials a b).outcomeStrobe = s.outcomeStrobe := rfl
@[simp] theorem State.applyCredentials_ports (s : State) (a b : List Byte) : (s.applyCredentials a b).ports = s.ports := rfl
@[simp] theorem State.applyCredentials_stimuli (s : State) (a b : List Byte) : (s.applyCredentials a b).stimuli = s.stimuli := rfl
@[simp] theorem State.applyCredentials_draws (s : State) (a b : List Byte) : (s.applyCredentials a b).draws = s.draws := rfl
@[simp] theorem State.applyCredentials_result (s : State) (a b : List Byte) : (s.applyCredentials a b).result = s.result := rfl

/-! ### `State.sendByte` -/

@[simp] theorem State.sendByte_params (s : State) (b : Byte) : (s.sendByte b).params = s.params := rfl
@[simp] theorem State.sendByte_role (s : State) (b : Byte) : (s.sendByte b).role = s.role := rfl
@[simp] theorem State.sendByte_st (s : State) (b : Byte) : (s.sendByte b).st = s.st := rfl
@[simp] theorem State.sendByte_session (s : State) (b : Byte) : (s.sendByte b).session = s.session := rfl
@[simp] theorem State.sendByte_frontEnd (s : State) (b : Byte) : (s.sendByte b).frontEnd = s.frontEnd := rfl
@[simp] theorem State.sendByte_frame (s : State) (b : Byte) : (s.sendByte b).frame = s.frame := rfl
@[simp] theorem State.sendByte_tx (s : State) (b : Byte) : (s.sendByte b).tx = s.tx := rfl
@[simp] theorem State.sendByte_cred (s : State) (b : Byte) : (s.sendByte b).cred = s.cred := rfl
@[simp] theorem State.sendByte_outcome (s : State) (b : Byte) : (s.sendByte b).outcome = s.outcome := rfl
@[simp] theorem State.sendByte_mem (s : State) (b : Byte) : (s.sendByte b).mem = s.mem := rfl
@[simp] theorem State.sendByte_outcomeStrobe (s : State) (b : Byte) : (s.sendByte b).outcomeStrobe = s.outcomeStrobe := rfl
@[simp] theorem State.sendByte_ports (s : State) (b : Byte) : (s.sendByte b).ports = s.ports := rfl
@[simp] theorem State.sendByte_stimuli (s : State) (b : Byte) : (s.sendByte b).stimuli = s.stimuli := rfl
@[simp] theorem State.sendByte_draws (s : State) (b : Byte) : (s.sendByte b).draws = s.draws := rfl
@[simp] theorem State.sendByte_result (s : State) (b : Byte) : (s.sendByte b).result = .sent b (byteActions s.params b) := rfl

/-! ### `State.rejectCode` -/

@[simp] theorem State.rejectCode_params (s : State) (e : DecodeError) : (s.rejectCode e).params = s.params := rfl
@[simp] theorem State.rejectCode_role (s : State) (e : DecodeError) : (s.rejectCode e).role = s.role := rfl
@[simp] theorem State.rejectCode_st (s : State) (e : DecodeError) : (s.rejectCode e).st = s.st := rfl
@[simp] theorem State.rejectCode_session (s : State) (e : DecodeError) : (s.rejectCode e).session = s.session := rfl
@[simp] theorem State.rejectCode_frontEnd (s : State) (e : DecodeError) : (s.rejectCode e).frontEnd = s.frontEnd := rfl
@[simp] theorem State.rejectCode_frame (s : State) (e : DecodeError) : (s.rejectCode e).frame = s.frame := rfl
@[simp] theorem State.rejectCode_tx (s : State) (e : DecodeError) : (s.rejectCode e).tx = s.tx := rfl
@[simp] theorem State.rejectCode_cred (s : State) (e : DecodeError) : (s.rejectCode e).cred = s.cred := rfl
@[simp] theorem State.rejectCode_outcome (s : State) (e : DecodeError) : (s.rejectCode e).outcome = s.outcome := rfl
@[simp] theorem State.rejectCode_mem (s : State) (e : DecodeError) : (s.rejectCode e).mem = s.mem := rfl
@[simp] theorem State.rejectCode_outcomeStrobe (s : State) (e : DecodeError) : (s.rejectCode e).outcomeStrobe = s.outcomeStrobe := rfl
@[simp] theorem State.rejectCode_ports (s : State) (e : DecodeError) : (s.rejectCode e).ports = s.ports := rfl
@[simp] theorem State.rejectCode_stimuli (s : State) (e : DecodeError) : (s.rejectCode e).stimuli = s.stimuli := rfl
@[simp] theorem State.rejectCode_draws (s : State) (e : DecodeError) : (s.rejectCode e).draws = s.draws := rfl
@[simp] theorem State.rejectCode_result (s : State) (e : DecodeError) : (s.rejectCode e).result = .rejected e := rfl

/-! ### `State.afterReset` -/

@[simp] theorem State.afterReset_params (s : State) : (s.afterReset).params = s.params := rfl
@[simp] theorem State.afterReset_role (s : State) : (s.afterReset).role = (State.resetAs s.params s.ports.roleStrap).role := rfl
@[simp] theorem State.afterReset_st (s : State) : (s.afterReset).st = (State.resetAs s.params s.ports.roleStrap).st := rfl
@[simp] theorem State.afterReset_session (s : State) : (s.afterReset).session = (State.resetAs s.params s.ports.roleStrap).session := rfl
@[simp] theorem State.afterReset_frontEnd (s : State) : (s.afterReset).frontEnd = (State.resetAs s.params s.ports.roleStrap).frontEnd := rfl
@[simp] theorem State.afterReset_frame (s : State) : (s.afterReset).frame = (State.resetAs s.params s.ports.roleStrap).frame := rfl
@[simp] theorem State.afterReset_tx (s : State) : (s.afterReset).tx = (State.resetAs s.params s.ports.roleStrap).tx := rfl
@[simp] theorem State.afterReset_cred (s : State) : (s.afterReset).cred = (State.resetAs s.params s.ports.roleStrap).cred := rfl
@[simp] theorem State.afterReset_outcome (s : State) : (s.afterReset).outcome = (State.resetAs s.params s.ports.roleStrap).outcome := rfl
@[simp] theorem State.afterReset_mem (s : State) : (s.afterReset).mem = (State.resetAs s.params s.ports.roleStrap).mem := rfl
@[simp] theorem State.afterReset_outcomeStrobe (s : State) : (s.afterReset).outcomeStrobe = (State.resetAs s.params s.ports.roleStrap).outcomeStrobe := rfl
@[simp] theorem State.afterReset_ports (s : State) : (s.afterReset).ports = s.ports := rfl
@[simp] theorem State.afterReset_stimuli (s : State) : (s.afterReset).stimuli = s.stimuli := rfl
@[simp] theorem State.afterReset_draws (s : State) : (s.afterReset).draws = s.draws := rfl
@[simp] theorem State.afterReset_result (s : State) : (s.afterReset).result = s.result := rfl

/-! ### The session's updates -/

@[simp] theorem Session.seedWith_seeded (x : Session) (t : Nat) (l : Level) : (x.seedWith t l).seeded = true := rfl
@[simp] theorem Session.seedWith_calibrating (x : Session) (t : Nat) (l : Level) : (x.seedWith t l).calibrating = x.calibrating := rfl
@[simp] theorem Session.seedWith_nominalPeriod (x : Session) (t : Nat) (l : Level) : (x.seedWith t l).nominalPeriod = x.nominalPeriod := rfl
@[simp] theorem Session.seedWith_lastEdgeTime (x : Session) (t : Nat) (l : Level) : (x.seedWith t l).lastEdgeTime = t := rfl
@[simp] theorem Session.seedWith_lastLevel (x : Session) (t : Nat) (l : Level) : (x.seedWith t l).lastLevel = l := rfl
@[simp] theorem Session.seedWith_bitCount (x : Session) (t : Nat) (l : Level) : (x.seedWith t l).bitCount = x.bitCount := rfl
@[simp] theorem Session.seedWith_shift (x : Session) (t : Nat) (l : Level) : (x.seedWith t l).shift = x.shift := rfl

@[simp] theorem Session.calibrateWith_seeded (P : Params) (x : Session) (d t : Nat) (l : Level) : (x.calibrateWith P d t l).seeded = x.seeded := rfl
@[simp] theorem Session.calibrateWith_calibrating (P : Params) (x : Session) (d t : Nat) (l : Level) : (x.calibrateWith P d t l).calibrating = false := rfl
@[simp] theorem Session.calibrateWith_nominalPeriod (P : Params) (x : Session) (d t : Nat) (l : Level) : (x.calibrateWith P d t l).nominalPeriod = scale P d := rfl
@[simp] theorem Session.calibrateWith_lastEdgeTime (P : Params) (x : Session) (d t : Nat) (l : Level) : (x.calibrateWith P d t l).lastEdgeTime = t := rfl
@[simp] theorem Session.calibrateWith_lastLevel (P : Params) (x : Session) (d t : Nat) (l : Level) : (x.calibrateWith P d t l).lastLevel = l := rfl
@[simp] theorem Session.calibrateWith_bitCount (P : Params) (x : Session) (d t : Nat) (l : Level) : (x.calibrateWith P d t l).bitCount = x.bitCount := rfl
@[simp] theorem Session.calibrateWith_shift (P : Params) (x : Session) (d t : Nat) (l : Level) : (x.calibrateWith P d t l).shift = x.shift := rfl

@[simp] theorem Session.bitWith_nominalPeriod (P : Params) (x : Session) (d t : Nat) (l : Level) : (x.bitWith P d t l).nominalPeriod = minUpdate x.nominalPeriod d := rfl
@[simp] theorem Session.bitWith_lastEdgeTime (P : Params) (x : Session) (d t : Nat) (l : Level) : (x.bitWith P d t l).lastEdgeTime = t := rfl
@[simp] theorem Session.bitWith_lastLevel (P : Params) (x : Session) (d t : Nat) (l : Level) : (x.bitWith P d t l).lastLevel = l := rfl
@[simp] theorem Session.bitWith_bitCount (P : Params) (x : Session) (d t : Nat) (l : Level) : (x.bitWith P d t l).bitCount = (x.accumulate P (x.bitOf d)).bitCount := rfl
@[simp] theorem Session.bitWith_shift (P : Params) (x : Session) (d t : Nat) (l : Level) : (x.bitWith P d t l).shift = (x.accumulate P (x.bitOf d)).shift := rfl

@[simp] theorem Session.accumulate_seeded (P : Params) (x : Session) (v : Bool) : (x.accumulate P v).seeded = x.seeded := by
  unfold Session.accumulate; split <;> rfl
@[simp] theorem Session.accumulate_calibrating (P : Params) (x : Session) (v : Bool) : (x.accumulate P v).calibrating = x.calibrating := by
  unfold Session.accumulate; split <;> rfl
@[simp] theorem Session.bitWith_seeded (P : Params) (x : Session) (d t : Nat) (l : Level) : (x.bitWith P d t l).seeded = x.seeded :=
  Session.accumulate_seeded P x _
@[simp] theorem Session.bitWith_calibrating (P : Params) (x : Session) (d t : Nat) (l : Level) : (x.bitWith P d t l).calibrating = x.calibrating :=
  Session.accumulate_calibrating P x _

/-! ### The buffers of a memory -/

@[simp] theorem Memory.cells_setCells_same (m : Memory) (n : BufferName) (cs : List Host.Cell) : (m.setCells n cs).cells n = cs := by
  cases n <;> rfl

theorem Memory.cells_setCells_other (m : Memory) (n b : BufferName) (cs : List Host.Cell) (h : b ≠ n) :
    (m.setCells n cs).cells b = m.cells b := by
  cases n <;> cases b <;> first | rfl | exact absurd rfl h

end Sys2Proof.Machine
end

