-- ==== Sys2Proof/Laws/Cells.lean ====
section
/-! SUPPORT. The laws of buffer cells: a read after a write, writes that leave other cells alone, block copies, and that every memory
operation keeps the canonical form. -/

namespace Sys2Proof.Machine

/-! ### One cell -/

theorem Cells.lookup_write_same (cs : List Host.Cell) (i : Nat) (v : Byte) : Cells.lookup (Cells.write cs i v) i = some v := by
  induction cs with
  | nil => simp [Cells.write, Cells.lookup]
  | cons c rest ih =>
    obtain ⟨a, b⟩ := c
    unfold Cells.write
    split
    · simp [Cells.lookup]
    · split
      · simp [Cells.lookup]
      · rename_i h1 h2
        simp [Cells.lookup, Ne.symm h2, ih]

theorem Cells.lookup_write_other (cs : List Host.Cell) (i j : Nat) (v : Byte) (h : j ≠ i) :
    Cells.lookup (Cells.write cs i v) j = Cells.lookup cs j := by
  induction cs with
  | nil => simp [Cells.write, Cells.lookup, Ne.symm h]
  | cons c rest ih =>
    obtain ⟨a, b⟩ := c
    unfold Cells.write
    split
    · simp [Cells.lookup, Ne.symm h]
    · split
      · rename_i h2
        subst h2
        simp [Cells.lookup, Ne.symm h]
      · simp [Cells.lookup, ih]

theorem Cells.wf_cons (a : Nat) (b : Byte) (rest : List Host.Cell) :
    Cells.wf ((a, b) :: rest) = true ↔ (∀ c ∈ rest.head?, a < c.1) ∧ Cells.wf rest = true := by
  cases rest with
  | nil => simp [Cells.wf]
  | cons c r => obtain ⟨a', b'⟩ := c; simp [Cells.wf]

theorem Cells.write_head (cs : List Host.Cell) (i : Nat) (v : Byte) :
    ∀ c ∈ (Cells.write cs i v).head?, c.1 = i ∨ ∃ d ∈ cs.head?, d.1 = c.1 := by
  cases cs with
  | nil => simp [Cells.write]
  | cons c rest =>
    obtain ⟨a, b⟩ := c
    unfold Cells.write
    split
    · simp
    · split <;> simp

/-- A write keeps the canonical form. -/
theorem Cells.wf_write (cs : List Host.Cell) (i : Nat) (v : Byte) (h : Cells.wf cs = true) : Cells.wf (Cells.write cs i v) = true := by
  induction cs with
  | nil => simp [Cells.write, Cells.wf]
  | cons c rest ih =>
    obtain ⟨a, b⟩ := c
    have hc := (Cells.wf_cons a b rest).mp h
    unfold Cells.write
    split
    · rename_i h1
      exact (Cells.wf_cons _ _ _).mpr ⟨by simpa using h1, h⟩
    · split
      · rename_i h1 h2
        subst h2
        exact (Cells.wf_cons _ _ _).mpr hc
      · rename_i h1 h2
        refine (Cells.wf_cons _ _ _).mpr ⟨fun c hcm => ?_, ih hc.2⟩
        rcases Cells.write_head rest i v c hcm with h3 | ⟨d, hd, h4⟩
        · omega
        · have := hc.1 d hd
          omega

/-! ### Block copies -/

theorem Cells.wf_writeBlock (vs : List Byte) : ∀ (cs : List Host.Cell) (i : Nat), Cells.wf cs = true →
    Cells.wf (Cells.writeBlock cs i vs) = true := by
  induction vs with
  | nil => intro cs i h; exact h
  | cons v vs ih => intro cs i h; exact ih _ _ (Cells.wf_write cs i v h)

/-- What a cell holds after a block copy from index `i`. -/
theorem Cells.lookup_writeBlock (vs : List Byte) : ∀ (cs : List Host.Cell) (i j : Nat),
    Cells.lookup (Cells.writeBlock cs i vs) j =
      if i ≤ j ∧ j < i + vs.length then vs[j - i]? else Cells.lookup cs j := by
  induction vs with
  | nil =>
    intro cs i j
    have : ¬ (i ≤ j ∧ j < i + ([] : List Byte).length) := by simp
    rw [if_neg this]; rfl
  | cons v vs ih =>
    intro cs i j
    simp only [Cells.writeBlock, ih, List.length_cons]
    by_cases h1 : j = i
    · subst h1
      have ha : ¬ (j + 1 ≤ j ∧ j < j + 1 + vs.length) := by omega
      have hb : j ≤ j ∧ j < j + (vs.length + 1) := by omega
      rw [if_neg ha, if_pos hb, Cells.lookup_write_same]; simp
    · by_cases h2 : i + 1 ≤ j ∧ j < i + 1 + vs.length
      · have hb : i ≤ j ∧ j < i + (vs.length + 1) := by omega
        rw [if_pos h2, if_pos hb]
        have : j - i = (j - (i + 1)) + 1 := by omega
        rw [this]; simp
      · have hb : ¬ (i ≤ j ∧ j < i + (vs.length + 1)) := by omega
        rw [if_neg h2, if_neg hb, Cells.lookup_write_other cs i j v h1]

/-! ### Reading sequences -/

@[simp] theorem Cells.memRead_length (name : BufferName) (cs : List Host.Cell) : ∀ (n i : Nat), (Cells.memRead name cs i n).length = n := by
  intro n
  induction n with
  | zero => intro i; rfl
  | succ n ih => intro i; simp [Cells.memRead, ih]

theorem Cells.memRead_getElem? (name : BufferName) (cs : List Host.Cell) : ∀ (n i k : Nat), k < n →
    (Cells.memRead name cs i n)[k]? = some (Cells.read name cs (i + k)) := by
  intro n
  induction n with
  | zero => intro i k h; omega
  | succ n ih =>
    intro i k h
    cases k with
    | zero => simp [Cells.memRead]
    | succ k =>
      have := ih (i + 1) k (by omega)
      simp only [Cells.memRead, List.getElem?_cons_succ, this]
      congr 2; omega

/-- Reading depends only on the bytes read. -/
theorem Cells.memRead_congr (name : BufferName) (cs cs' : List Host.Cell) : ∀ (n i : Nat),
    (∀ j, i ≤ j → j < i + n → Cells.read name cs j = Cells.read name cs' j) →
    Cells.memRead name cs i n = Cells.memRead name cs' i n := by
  intro n
  induction n with
  | zero => intro i _; rfl
  | succ n ih =>
    intro i h
    simp only [Cells.memRead]
    rw [h i (Nat.le_refl i) (by omega), ih (i + 1) (fun j h1 h2 => h j (by omega) (by omega))]

/-- Reading one byte more. -/
theorem Cells.memRead_succ (name : BufferName) (cs : List Host.Cell) : ∀ (n i : Nat),
    Cells.memRead name cs i (n + 1) = Cells.memRead name cs i n ++ [Cells.read name cs (i + n)] := by
  intro n
  induction n with
  | zero => intro i; simp [Cells.memRead]
  | succ n ih =>
    intro i
    have h := ih (i + 1)
    have e : i + 1 + n = i + (n + 1) := by omega
    rw [e] at h
    show Cells.read name cs i :: Cells.memRead name cs (i + 1) (n + 1) = _
    rw [h]; rfl

theorem Cells.read_write_same (name : BufferName) (cs : List Host.Cell) (i : Nat) (v : Byte) :
    Cells.read name (Cells.write cs i v) i = v := by
  simp [Cells.read, Cells.lookup_write_same]

theorem Cells.read_write_other (name : BufferName) (cs : List Host.Cell) (i j : Nat) (v : Byte) (h : j ≠ i) :
    Cells.read name (Cells.write cs i v) j = Cells.read name cs j := by
  simp [Cells.read, Cells.lookup_write_other cs i j v h]

theorem Cells.read_writeBlock_inside (name : BufferName) (cs : List Host.Cell) (vs : List Byte) (i k : Nat) (h : k < vs.length) :
    Cells.read name (Cells.writeBlock cs i vs) (i + k) = vs[k] := by
  have hc : i ≤ i + k ∧ i + k < i + vs.length := by omega
  simp [Cells.read, Cells.lookup_writeBlock, hc, List.getElem?_eq_getElem h]

theorem Cells.read_writeBlock_outside (name : BufferName) (cs : List Host.Cell) (vs : List Byte) (i j : Nat)
    (h : ¬ (i ≤ j ∧ j < i + vs.length)) : Cells.read name (Cells.writeBlock cs i vs) j = Cells.read name cs j := by
  simp only [Cells.read, Cells.lookup_writeBlock, if_neg h]

/-- A block copy read back. -/
theorem Cells.memRead_writeBlock (name : BufferName) (cs : List Host.Cell) (vs : List Byte) (i : Nat) :
    Cells.memRead name (Cells.writeBlock cs i vs) i vs.length = vs := by
  apply List.ext_getElem?
  intro k
  by_cases h : k < vs.length
  · rw [Cells.memRead_getElem? _ _ _ _ _ h, Cells.read_writeBlock_inside name cs vs i k h, List.getElem?_eq_getElem h]
  · rw [List.getElem?_eq_none (by simpa using h), List.getElem?_eq_none (by simpa using h)]

/-! ### Named buffers -/

theorem Memory.readByte_setCells_other (m : Memory) (n b : BufferName) (cs : List Host.Cell) (i : Nat) (h : b ≠ n) :
    (m.setCells n cs).readByte b i = m.readByte b i := by
  simp [Memory.readByte, Memory.cells_setCells_other m n b cs h]

/-- A block copy into a buffer reads back. -/
theorem Memory.memRead_copyIn (m : Memory) (n : BufferName) (vs : List Byte) :
    (m.copyIn n vs).memRead n 0 vs.length = vs := by
  simp [Memory.memRead, Memory.copyIn, Cells.memRead_writeBlock]

/-- A block copy changes only the copied bytes of its buffer. -/
theorem Memory.readByte_copyIn_other (m : Memory) (n b : BufferName) (vs : List Byte) (i : Nat)
    (h : ¬ (b = n ∧ i < vs.length)) : (m.copyIn n vs).readByte b i = m.readByte b i := by
  by_cases hb : b = n
  · subst hb
    have : ¬ i < vs.length := fun hi => h ⟨rfl, hi⟩
    simp only [Memory.readByte, Memory.copyIn, Memory.cells_setCells_same]
    exact Cells.read_writeBlock_outside b _ vs 0 i (by omega)
  · exact Memory.readByte_setCells_other m n b _ i hb

theorem Memory.memRead_copyIn_other (m : Memory) (n b : BufferName) (vs : List Byte) (i k : Nat) (h : b ≠ n) :
    (m.copyIn n vs).memRead b i k = m.memRead b i k := by
  simp [Memory.memRead, Memory.copyIn, Memory.cells_setCells_other m n b _ h]

theorem Memory.wf_iff (m : Memory) : m.wf = true ↔ ∀ n, Cells.wf (m.cells n) = true := by
  constructor
  · intro h n
    simp only [Memory.wf, Bool.and_eq_true] at h
    obtain ⟨⟨⟨⟨h1, h2⟩, h3⟩, h4⟩, h5⟩ := h
    cases n <;> assumption
  · intro h
    simp only [Memory.wf, Bool.and_eq_true]
    exact ⟨⟨⟨⟨h .rawBytes, h .framePayload⟩, h .txFrame⟩, h .ssid⟩, h .password⟩

theorem Memory.wf_setCells (m : Memory) (n : BufferName) (cs : List Host.Cell) (h : m.wf = true) (hc : Cells.wf cs = true) :
    (m.setCells n cs).wf = true := by
  refine (Memory.wf_iff _).mpr (fun b => ?_)
  by_cases hb : b = n
  · subst hb; simpa using hc
  · rw [Memory.cells_setCells_other m n b cs hb]; exact (Memory.wf_iff m).mp h b

/-- `MemWrite` keeps the canonical form. -/
theorem Memory.wf_memWrite (m : Memory) (n : BufferName) (i : Nat) (v : Byte) (h : m.wf = true) : (m.memWrite n i v).wf = true :=
  Memory.wf_setCells m n _ h (Cells.wf_write _ i v ((Memory.wf_iff m).mp h n))

/-- A block copy keeps the canonical form. -/
theorem Memory.wf_copyIn (m : Memory) (n : BufferName) (vs : List Byte) (h : m.wf = true) : (m.copyIn n vs).wf = true :=
  Memory.wf_setCells m n _ h (Cells.wf_writeBlock vs _ 0 ((Memory.wf_iff m).mp h n))

/-- The byte assembler keeps the canonical form of its buffer. -/
theorem Session.accumulateCells_wf (P : Params) (x : Session) (cs : List Host.Cell) (v : Bool) (h : Cells.wf cs = true) :
    Cells.wf (x.accumulateCells P cs v) = true := by
  unfold Session.accumulateCells; split
  · exact Cells.wf_write cs _ _ h
  · exact h

theorem State.reset_mem_wf (P : Params) (r : Role) : (State.resetAs P r).mem.wf = true := rfl

end Sys2Proof.Machine
end

