-- ==== Sys2Proof/Laws/Ops.lean ====
section
/-! SUPPORT. For each shared operation one lemma that says everything it can do: the arithmetic, the byte assembler, raising an error
kind, ending a session, the parser, the splitter. Later proofs cite these instead of unfolding. -/

namespace Sys2Proof

/-- A sampled or computed value fits `TS_W` bits (R6, R11). -/
theorem Params.stamp_lt (P : Params) (x : Nat) : P.stamp x < 2 ^ P.tsW := Nat.mod_lt _ (Nat.two_pow_pos _)

/-- A value that fits is its own. -/
theorem Params.stamp_of_lt (P : Params) (x : Nat) (h : x < 2 ^ P.tsW) : P.stamp x = x := Nat.mod_eq_of_lt h

/-- `BC_W` bits hold the count of a session that is not over-full (R8, R21). -/
theorem Params.lt_bcW (P : Params) (n : Nat) (h : n ≤ 8 * P.rawCap) : n < 2 ^ P.bcW :=
  Nat.lt_of_le_of_lt h Nat.lt_log2_self

end Sys2Proof

namespace Sys2Proof.Machine

/-! ### Arithmetic -/

theorem elapsed_lt (P : Params) (a b : Nat) : elapsed P a b < 2 ^ P.tsW := P.stamp_lt _

/-- The elapsed time between two instants that lie less than `2^TS_W` apart is their true distance, wherever the counter wraps
(R11 item 1). -/
theorem elapsed_stamp_add (P : Params) (t d : Nat) (h : d < 2 ^ P.tsW) : elapsed P (P.stamp (t + d)) (P.stamp t) = d := by
  unfold elapsed Params.stamp
  have hm : t % 2 ^ P.tsW < 2 ^ P.tsW := Nat.mod_lt _ (Nat.two_pow_pos _)
  rw [Nat.mod_mod, Nat.add_mod t d, Nat.mod_eq_of_lt h]
  generalize 2 ^ P.tsW = m at *
  generalize t % m = r at *
  by_cases hc : r + d < m
  · rw [Nat.mod_eq_of_lt hc, show r + d + (m - r) = d + m by omega, Nat.add_mod_right, Nat.mod_eq_of_lt h]
  · have e : (r + d) % m = r + d - m := by
      rw [Nat.mod_eq_sub_mod (by omega), Nat.mod_eq_of_lt (by omega)]
    rw [e, show r + d - m + (m - r) = d by omega, Nat.mod_eq_of_lt h]

theorem scale_lt (P : Params) (d : Nat) : scale P d < 2 ^ P.tsW := P.stamp_lt _

/-- `Scale` loses nothing: with a margin below one the exact quotient fits `TS_W` bits (R11 item 2). -/
theorem scale_eq (P : Params) (d : Nat) (hm : P.marginNum < P.marginDen) (hd : d < 2 ^ P.tsW) :
    scale P d = P.marginNum * d / P.marginDen := by
  apply P.stamp_of_lt
  exact Nat.lt_of_le_of_lt (Nat.div_le_of_le_mul (Nat.mul_le_mul_right d (Nat.le_of_lt hm))) hd

theorem minUpdate_eq_min (p d : Nat) : minUpdate p d = min p d := by
  unfold minUpdate; split <;> omega

theorem isLong_iff (d p : Nat) : isLong d p = true ↔ 3 * p ≤ 2 * d := by
  simp [isLong]

theorem classify_iff (d p : Nat) : classify d p = true ↔ 3 * p ≤ 2 * d := isLong_iff d p

theorem xorBytes_nil : xorBytes [] = 0#8 := rfl

theorem xorBytes_snoc (s : List Byte) (b : Byte) : xorBytes (s ++ [b]) = xorBytes s ^^^ b := by
  simp [xorBytes, List.foldl_append]

/-! ### The byte assembler -/

/-- Everything `Accumulate` can do: drop the bit of a full session, open or extend a byte, or close one (R113). -/
theorem Session.accumulate_cases (P : Params) (x : Session) (cs : List Host.Cell) (v : Bool) :
    (8 * P.rawCap ≤ x.bitCount ∧ x.accumulate P v = x ∧ x.accumulateCells P cs v = cs) ∨
    (x.bitCount < 8 * P.rawCap ∧ x.bitPos ≠ 7 ∧
      x.accumulate P v = { x with shift := x.shiftIn v, bitCount := x.bitCount + 1 } ∧ x.accumulateCells P cs v = cs) ∨
    (x.bitCount < 8 * P.rawCap ∧ x.bitPos = 7 ∧
      x.accumulate P v = { x with shift := 0#8, bitCount := x.bitCount + 1 } ∧
      x.accumulateCells P cs v = Cells.write cs x.byteCount (x.shiftIn v)) := by
  unfold Session.accumulate Session.accumulateCells
  by_cases h : x.bitCount < 8 * P.rawCap
  · by_cases h7 : x.bitPos = 7
    · exact .inr (.inr ⟨h, h7, by simp [h, h7], by simp [h, h7]⟩)
    · exact .inr (.inl ⟨h, h7, by simp [h, h7], by simp [h7]⟩)
  · exact .inl ⟨by omega, by simp [h], by simp [h]⟩

/-- The count of accepted bits grows by one until it is full (R21, R113). -/
theorem Session.accumulate_bitCount (P : Params) (x : Session) (v : Bool) :
    (x.accumulate P v).bitCount = if x.bitCount < 8 * P.rawCap then x.bitCount + 1 else x.bitCount := by
  unfold Session.accumulate; split <;> rfl

/-- The value shifted in: twice the old value plus the bit, kept to 8 bits (R113). -/
theorem Session.shiftIn_toNat (x : Session) (v : Bool) :
    (x.shiftIn v).toNat = 2 * (x.shift.toNat % 128) + v.toNat := by
  unfold Session.shiftIn
  rw [BitVec.toNat_concat, BitVec.toNat_setWidth]
  omega

/-! ### Raising and ending -/

/-- Everything `raise` writes (R170). -/
theorem State.raise_eq (s : State) (k : ErrorKind) :
    s.raise k = { s with outcome := k.code, outcomeStrobe := true, session := Session.empty s.params, st := rListening } := rfl

/-- A session ends in an empty one, or in one seeded by the tick's own edge (R114). -/
theorem State.endSession_eq (s : State) (k : ErrorKind) :
    s.endSession k =
      { s with outcome := k.code, outcomeStrobe := true, st := rListening,
               session := if s.edge then (Session.empty s.params).seedWith s.now s.ports.rxLevel else Session.empty s.params } := by
  unfold State.endSession; split <;> rfl

/-- Everything the idle-timeout event can do (R114). -/
theorem State.endOfFrame_cases (s : State) :
    (s.session.gateOk s.params = false ∧ s.endOfFrame = s.endSession .noiseOnlySession) ∨
    (∃ f, s.session.gateOk s.params = true ∧ s.parsed = .ok f ∧ s.endOfFrame = s.acceptFrame f) ∨
    (∃ k, s.session.gateOk s.params = true ∧ s.parsed = .err k ∧ s.endOfFrame = s.endSession k.kind) := by
  unfold State.endOfFrame
  cases hg : s.session.gateOk s.params with
  | false => exact .inl ⟨rfl, by simp⟩
  | true =>
    cases hp : s.parsed with
    | ok f => exact .inr (.inl ⟨f, rfl, rfl, by simp⟩)
    | err k => exact .inr (.inr ⟨k, rfl, rfl, by simp⟩)

/-! ### The parser and the splitter -/

/-- When `FRM.PARSE` gives a frame, and which (R129). -/
theorem parseFrame_ok_iff (P : Params) (bytes : List Byte) (f : Frame) :
    parseFrame P bytes = .ok f ↔
      slice bytes 0 4 = P.sig ∧ declaredLength bytes + 6 ≤ bytes.length ∧
        xorBytes (frameIn bytes).payload = (frameIn bytes).checksum ∧ f = frameIn bytes := by
  unfold parseFrame
  constructor
  · intro h
    split at h
    · cases h
    · split at h
      · cases h
      · split at h
        · cases h
        · split at h
          · cases h
          · split at h
            · cases h
            · rename_i h1 h2 h3 h4 h5
              cases h
              exact ⟨not_not.mp h2, by omega, not_not.mp h5, rfl⟩
  · rintro ⟨h1, h2, h3, rfl⟩
    rw [if_neg (by omega), if_neg (not_not.mpr h1), if_neg (by omega), if_neg (by omega), if_neg (not_not.mpr h3)]

theorem colonIndex_none_iff (P : Params) (p : List Byte) : colonIndex P p = none ↔ P.colon ∉ p := by
  induction p with
  | nil => simp [colonIndex]
  | cons b rest ih =>
    unfold colonIndex
    by_cases h : b = P.colon
    · simp [h]
    · simp only [if_neg h, List.mem_cons, not_or]
      cases hr : colonIndex P rest with
      | none => exact ⟨fun _ => ⟨fun e => h e.symm, ih.mp hr⟩, fun _ => rfl⟩
      | some k =>
        refine ⟨fun e => (by simp at e), fun e => ?_⟩
        rw [ih.mpr e.2] at hr; cases hr

/-- The colon's index splits the bytes: no colon before it (R131). -/
theorem colonIndex_some (P : Params) (p : List Byte) (k : Nat) (h : colonIndex P p = some k) :
    k < p.length ∧ p[k]? = some P.colon ∧ P.colon ∉ p.take k := by
  induction p generalizing k with
  | nil => simp [colonIndex] at h
  | cons b rest ih =>
    unfold colonIndex at h
    by_cases hb : b = P.colon
    · simp only [if_pos hb] at h
      cases h; simp [hb]
    · simp only [if_neg hb] at h
      cases hr : colonIndex P rest with
      | none => rw [hr] at h; cases h
      | some j =>
        rw [hr] at h
        cases h
        obtain ⟨h1, h2, h3⟩ := ih j hr
        refine ⟨by simpa using h1, by simpa using h2, ?_⟩
        simp only [List.take_succ_cons, List.mem_cons, not_or]
        exact ⟨fun e => hb e.symm, h3⟩

/-- `SEL[0]` says whether the split succeeds (R131, R76). -/
theorem State.colonFound_iff (s : State) : s.colonFound = true ↔ s.splitPayload ≠ .err := by
  unfold State.colonFound State.splitPayload splitCredentials
  have h := colonIndex_none_iff s.params s.framePayloadBytes
  cases hc : colonIndex s.params s.framePayloadBytes with
  | none =>
    have := h.mp hc
    simp only [ne_eq, not_true_eq_false, iff_false, Bool.not_eq_true, List.any_eq_false, beq_iff_eq]
    intro b hb e; exact this (e ▸ hb)
  | some k =>
    have hne : ¬ (s.params.colon ∉ s.framePayloadBytes) := fun e => by rw [h.mpr e] at hc; cases hc
    simp only [ne_eq, reduceCtorEq, not_false_eq_true, iff_true, List.any_eq_true, beq_iff_eq]
    exact ⟨s.params.colon, not_not.mp hne, rfl⟩

/-- `SEL[2:1]` says whether the parse succeeds (R76, R129). -/
theorem ParseResult.bits_eq_zero_iff (r : ParseResult) : r.bits = 0b00#2 ↔ ∃ f, r = .ok f := by
  cases r with
  | ok f => simp [ParseResult.bits]
  | err k => cases k <;> simp [ParseResult.bits]

theorem payloadFrom_length (bytes : List Byte) : ∀ (n i : Nat), (payloadFrom bytes i n).length = n := by
  intro n
  induction n with
  | zero => intro i; rfl
  | succ n ih => intro i; simp [payloadFrom, ih]

/-- The latched payload has `tx_len` bytes (R143). -/
theorem payloadOf_length (p : Ports) : (payloadOf p).length = p.txLen.toNat := payloadFrom_length _ _ _

theorem serialize_length (P : Params) (f : Frame) : (serialize P f).length = f.payload.length + 6 := by
  simp [serialize, Params.sig]

/-- The transmitted frame is `tx_len + 6` bytes (R128, R143). -/
theorem State.frameToSend_length (s : State) : s.frameToSend.length = s.ports.txLen.toNat + 6 := by
  simp [State.frameToSend, serialize_length, buildFrame, payloadOf_length]

end Sys2Proof.Machine
end

