-- ==== Sys2Proof/Laws/PerInstr.lean ====
section
/-! SUPPORT. Per operation: every code that the encoder writes for it is well formed, whatever the don't-care bits, the frame's length
and the payload byte's index (30_encoding.md R71, R73, R77; 20_memory.md R58). -/

namespace Sys2Proof.Laws

/-- Every code of the operation is well formed; an operation without a bit pattern has none. -/
def EncodedCodeIsWellFormed.Statement : Instr → Prop := fun i => ∀ P f c, encodeAt P f i = some c → c.wf = true

theorem EncodedCodeIsWellFormed.sysReset : EncodedCodeIsWellFormed.Statement .sysReset := by
  intro P f c h; cases h; rfl
theorem EncodedCodeIsWellFormed.sWait : EncodedCodeIsWellFormed.Statement .sWait := by
  intro P f c h; cases h; rfl
theorem EncodedCodeIsWellFormed.sTrigger : EncodedCodeIsWellFormed.Statement .sTrigger := by
  intro P f c h; cases h; rfl
theorem EncodedCodeIsWellFormed.sTxtick : EncodedCodeIsWellFormed.Statement .sTxtick := by
  intro P f c h; cases h; rfl
theorem EncodedCodeIsWellFormed.sTxdone : EncodedCodeIsWellFormed.Statement .sTxdone := by
  intro P f c h; cases h; rfl
theorem EncodedCodeIsWellFormed.sCool : EncodedCodeIsWellFormed.Statement .sCool := by
  intro P f c h; cases h; rfl
theorem EncodedCodeIsWellFormed.sTimeout : EncodedCodeIsWellFormed.Statement .sTimeout := by
  intro P f c h; cases h; rfl
theorem EncodedCodeIsWellFormed.sHalt : EncodedCodeIsWellFormed.Statement .sHalt := by
  intro P f c h; cases h; rfl
theorem EncodedCodeIsWellFormed.decSeed : EncodedCodeIsWellFormed.Statement .decSeed := by
  intro P f c h; cases h; rfl
theorem EncodedCodeIsWellFormed.decCal : EncodedCodeIsWellFormed.Statement .decCal := by
  intro P f c h; cases h; rfl
theorem EncodedCodeIsWellFormed.decReject : EncodedCodeIsWellFormed.Statement .decReject := by
  intro P f c h; cases h; rfl
theorem EncodedCodeIsWellFormed.decBit : EncodedCodeIsWellFormed.Statement .decBit := by
  intro P f c h; cases h; rfl
theorem EncodedCodeIsWellFormed.rQuiet : EncodedCodeIsWellFormed.Statement .rQuiet := by
  intro P f c h; cases h; rfl
theorem EncodedCodeIsWellFormed.rInframe : EncodedCodeIsWellFormed.Statement .rInframe := by
  intro P f c h; cases h; rfl
theorem EncodedCodeIsWellFormed.rDiscard : EncodedCodeIsWellFormed.Statement .rDiscard := by
  intro P f c h; cases h; rfl
theorem EncodedCodeIsWellFormed.rAccept : EncodedCodeIsWellFormed.Statement .rAccept := by
  intro P f c h; cases h; rfl
theorem EncodedCodeIsWellFormed.rRejectSig : EncodedCodeIsWellFormed.Statement .rRejectSig := by
  intro P f c h; cases h; rfl
theorem EncodedCodeIsWellFormed.rRejectTrunc : EncodedCodeIsWellFormed.Statement .rRejectTrunc := by
  intro P f c h; cases h; rfl
theorem EncodedCodeIsWellFormed.rRejectChk : EncodedCodeIsWellFormed.Statement .rRejectChk := by
  intro P f c h; cases h; rfl
theorem EncodedCodeIsWellFormed.rApply : EncodedCodeIsWellFormed.Statement .rApply := by
  intro P f c h; cases h; rfl
theorem EncodedCodeIsWellFormed.rCrederr : EncodedCodeIsWellFormed.Statement .rCrederr := by
  intro P f c h; cases h; rfl
theorem EncodedCodeIsWellFormed.rDone : EncodedCodeIsWellFormed.Statement .rDone := by
  intro P f c h; cases h; rfl
theorem EncodedCodeIsWellFormed.rRsvd : EncodedCodeIsWellFormed.Statement .rRsvd := by
  intro P f c h; cases h; rfl
theorem EncodedCodeIsWellFormed.encStart : EncodedCodeIsWellFormed.Statement .encStart := by
  intro P f c h; cases h; rfl
theorem EncodedCodeIsWellFormed.encBit0 : EncodedCodeIsWellFormed.Statement .encBit0 := by
  intro P f c h; cases h; rfl
theorem EncodedCodeIsWellFormed.encBit1 : EncodedCodeIsWellFormed.Statement .encBit1 := by
  intro P f c h; cases h; rfl
theorem EncodedCodeIsWellFormed.encStop : EncodedCodeIsWellFormed.Statement .encStop := by
  intro P f c h; cases h; rfl
theorem EncodedCodeIsWellFormed.encByte (b : Byte) : EncodedCodeIsWellFormed.Statement (.encByte b) := by
  intro P f c h; cases h
theorem EncodedCodeIsWellFormed.encFrame (bytes : List Byte) : EncodedCodeIsWellFormed.Statement (.encFrame bytes) := by
  intro P f c h; cases h
theorem EncodedCodeIsWellFormed.txDrive : EncodedCodeIsWellFormed.Statement .txDrive := by
  intro P f c h; cases h
theorem EncodedCodeIsWellFormed.rxfeSample : EncodedCodeIsWellFormed.Statement .rxfeSample := by
  intro P f c h; cases h
theorem EncodedCodeIsWellFormed.decIdle : EncodedCodeIsWellFormed.Statement .decIdle := by
  intro P f c h; cases h
theorem EncodedCodeIsWellFormed.decReset : EncodedCodeIsWellFormed.Statement .decReset := by
  intro P f c h; cases h
theorem EncodedCodeIsWellFormed.frmXor (s : List Byte) : EncodedCodeIsWellFormed.Statement (.frmXor s) := by
  intro P f c h; cases h
theorem EncodedCodeIsWellFormed.frmBuild (payload : List Byte) : EncodedCodeIsWellFormed.Statement (.frmBuild payload) := by
  intro P f c h; cases h
theorem EncodedCodeIsWellFormed.frmSerialize (f : Frame) : EncodedCodeIsWellFormed.Statement (.frmSerialize f) := by
  intro P f c h; cases h
theorem EncodedCodeIsWellFormed.frmParse (bytes : List Byte) : EncodedCodeIsWellFormed.Statement (.frmParse bytes) := by
  intro P f c h; cases h
theorem EncodedCodeIsWellFormed.credSplit (payload : List Byte) : EncodedCodeIsWellFormed.Statement (.credSplit payload) := by
  intro P f c h; cases h
theorem EncodedCodeIsWellFormed.frameSig0 : EncodedCodeIsWellFormed.Statement .frameSig0 := by
  intro P f c h; cases h; simp only [Code.wf, decide_eq_true_eq]; omega
theorem EncodedCodeIsWellFormed.frameSig1 : EncodedCodeIsWellFormed.Statement .frameSig1 := by
  intro P f c h; cases h; simp only [Code.wf, decide_eq_true_eq]; omega
theorem EncodedCodeIsWellFormed.frameSig2 : EncodedCodeIsWellFormed.Statement .frameSig2 := by
  intro P f c h; cases h; simp only [Code.wf, decide_eq_true_eq]; omega
theorem EncodedCodeIsWellFormed.frameSig3 : EncodedCodeIsWellFormed.Statement .frameSig3 := by
  intro P f c h; cases h; simp only [Code.wf, decide_eq_true_eq]; omega
theorem EncodedCodeIsWellFormed.frameLen (l : Byte) : EncodedCodeIsWellFormed.Statement (.frameLen l) := by
  intro P f c h; cases h; simp only [Code.wf, decide_eq_true_eq]; omega
theorem EncodedCodeIsWellFormed.framePayload (p : Byte) : EncodedCodeIsWellFormed.Statement (.framePayload p) := by
  intro P f c h
  have h : (if f.index < f.len.toNat then some (.byte (5 + f.index) f.len p) else none) = some c := h
  split at h
  · cases h; simp only [Code.wf, decide_eq_true_eq]; omega
  · cases h
theorem EncodedCodeIsWellFormed.frameChecksum (c : Byte) : EncodedCodeIsWellFormed.Statement (.frameChecksum c) := by
  intro P f c h; cases h; simp only [Code.wf, decide_eq_true_eq]; omega

end Sys2Proof.Laws
end

