-- ==== Sys2Proof/Laws/Step.lean ====
section
/-! SUPPORT. What a step can do, once: how it finds its code, and how its answer comes from the operation's. -/

namespace Sys2Proof.Machine

/-- The state a placed tick is performed in (R162). -/
theorem State.fetch_tick (s : State) (p : Ports) (rest : List Stimulus) (h : s.stimuli = .tick p :: rest) :
    s.fetch = ({ s with ports := p, stimuli := rest, outcomeStrobe := false },
      .tick ({ s with ports := p, stimuli := rest, outcomeStrobe := false } : State).sel) := by
  unfold State.fetch; rw [h]; rfl

/-- The state a tick with free inputs is performed in (log 1). -/
theorem State.fetch_free (s : State) (h : s.stimuli = []) :
    s.fetch = ({ s with ports := Config.environment s.draws, draws := s.draws + 1, outcomeStrobe := false },
      .tick ({ s with ports := Config.environment s.draws, draws := s.draws + 1, outcomeStrobe := false } : State).sel) := by
  unfold State.fetch; rw [h]; rfl

theorem State.fetch_wire (s : State) (first : Bool) (uu : Nat) (rest : List Stimulus) (h : s.stimuli = .wire first uu :: rest) :
    s.fetch = ({ s with stimuli := rest }, .wire first uu) := by
  unfold State.fetch; rw [h]

theorem State.fetch_byte (s : State) (offset : Nat) (len b : Byte) (rest : List Stimulus)
    (h : s.stimuli = .byte offset len b :: rest) : s.fetch = ({ s with stimuli := rest }, .byte offset len b) := by
  unfold State.fetch; rw [h]

/-- Fetching touches only the inputs: every register of the spec is as before. -/
theorem State.fetch_registers (s : State) :
    s.fetch.1.params = s.params ∧ s.fetch.1.role = s.role ∧ s.fetch.1.st = s.st ∧ s.fetch.1.session = s.session ∧ s.fetch.1.frontEnd = s.frontEnd ∧
      s.fetch.1.frame = s.frame ∧ s.fetch.1.tx = s.tx ∧ s.fetch.1.cred = s.cred ∧ s.fetch.1.outcome = s.outcome ∧
      s.fetch.1.mem = s.mem ∧ s.fetch.1.result = s.result := by
  unfold State.fetch
  split <;> exact ⟨rfl, rfl, rfl, rfl, rfl, rfl, rfl, rfl, rfl, rfl, rfl⟩

/-- The code of a tick is the select word of the state it is performed in (R76). -/
theorem State.fetch_tick_code (s : State) (sel : BitVec 16) (h : s.fetch.2 = .tick sel) : sel = s.fetch.1.sel := by
  unfold State.fetch at h ⊢
  split at h <;> simp_all

/-- Where an operation answers a next state, the step does, with the front end's writes of a receiver's tick (R162). -/
theorem step_of_exec (s : State) (i : Instr) (t : State) (hd : decode s.params s.fetch.2 = .ok i) (he : exec i s.fetch.1 = .next t) :
    step s = .next (closeTick s.fetch.2 s.fetch.1 t) := by
  unfold step; rw [hd]; simp only [he, finishStep]

/-- Everything a step that answers a next state can have done. -/
theorem step_next_cases (s t : State) (h : step s = .next t) :
    (∃ i u, decode s.params s.fetch.2 = .ok i ∧ exec i s.fetch.1 = .next u ∧ t = closeTick s.fetch.2 s.fetch.1 u) ∨
    (∃ e, decode s.params s.fetch.2 = .error e ∧ t = s.fetch.1.rejectCode e) := by
  unfold step at h
  cases hd : decode s.params s.fetch.2 with
  | ok i =>
    rw [hd] at h
    simp only at h
    cases he : exec i s.fetch.1 with
    | next u =>
      rw [he] at h
      simp only [finishStep] at h
      cases h
      exact .inl ⟨i, u, rfl, he, rfl⟩
    | fault e => rw [he] at h; simp [finishStep] at h
    | refused e => rw [he] at h; simp [finishStep] at h
  | error e =>
    rw [hd] at h
    simp only at h
    cases h
    exact .inr ⟨e, rfl, rfl⟩

/-- What closing a tick does to every field but the front end: nothing. -/
theorem closeTick_registers (c : Code) (s t : State) :
    (closeTick c s t).params = t.params ∧ (closeTick c s t).role = t.role ∧ (closeTick c s t).st = t.st ∧ (closeTick c s t).session = t.session ∧
      (closeTick c s t).frame = t.frame ∧ (closeTick c s t).tx = t.tx ∧ (closeTick c s t).cred = t.cred ∧
      (closeTick c s t).outcome = t.outcome ∧ (closeTick c s t).mem = t.mem ∧
      (closeTick c s t).outcomeStrobe = t.outcomeStrobe ∧ (closeTick c s t).ports = t.ports ∧
      (closeTick c s t).stimuli = t.stimuli ∧ (closeTick c s t).draws = t.draws ∧ (closeTick c s t).result = t.result := by
  unfold closeTick
  split
  · split <;> exact ⟨rfl, rfl, rfl, rfl, rfl, rfl, rfl, rfl, rfl, rfl, rfl, rfl, rfl, rfl⟩
  all_goals exact ⟨rfl, rfl, rfl, rfl, rfl, rfl, rfl, rfl, rfl, rfl, rfl, rfl, rfl, rfl⟩

/-- The front end after a tick: sampled in a receiver's tick that is no reset, else what the operation left (R105, R161). -/
theorem closeTick_frontEnd (sel : BitVec 16) (s t : State) :
    (closeTick (.tick sel) s t).frontEnd =
      if s.ports.rst = false ∧ s.role = .receiver then s.frontEndAfter else t.frontEnd := by
  unfold closeTick State.samplesLine
  cases s.ports.rst <;> cases s.role <;> simp

end Sys2Proof.Machine
end

