-- ==== Sys2Proof/Laws/Select.lean ====
section
/-! SUPPORT. The bits of the select word, by number, and when a row of the operation map matches (30_encoding.md R76, R77). -/

namespace Sys2Proof.Machine

theorem Select.word_rst (x : Select) : x.word.getLsbD 15 = x.rst := by
  unfold Select.word; simp only [BitVec.getLsbD_append, BitVec.getLsbD_ofBool]; simp
theorem Select.word_role (x : Select) : x.word.getLsbD 14 = x.role := by
  unfold Select.word; simp only [BitVec.getLsbD_append, BitVec.getLsbD_ofBool]; simp
theorem Select.word_st1 (x : Select) : x.word.getLsbD 13 = x.st.getLsbD 1 := by
  unfold Select.word; simp only [BitVec.getLsbD_append, BitVec.getLsbD_ofBool]; simp
theorem Select.word_st0 (x : Select) : x.word.getLsbD 12 = x.st.getLsbD 0 := by
  unfold Select.word; simp only [BitVec.getLsbD_append, BitVec.getLsbD_ofBool]; simp
theorem Select.word_trigger (x : Select) : x.word.getLsbD 11 = x.trigger := by
  unfold Select.word; simp only [BitVec.getLsbD_append, BitVec.getLsbD_ofBool]; simp
theorem Select.word_txDone (x : Select) : x.word.getLsbD 10 = x.txDone := by
  unfold Select.word; simp only [BitVec.getLsbD_append, BitVec.getLsbD_ofBool]; simp
theorem Select.word_windowElapsed (x : Select) : x.word.getLsbD 9 = x.windowElapsed := by
  unfold Select.word; simp only [BitVec.getLsbD_append, BitVec.getLsbD_ofBool]; simp
theorem Select.word_edge (x : Select) : x.word.getLsbD 8 = x.edge := by
  unfold Select.word; simp only [BitVec.getLsbD_append, BitVec.getLsbD_ofBool]; simp
theorem Select.word_seeded (x : Select) : x.word.getLsbD 7 = x.seeded := by
  unfold Select.word; simp only [BitVec.getLsbD_append, BitVec.getLsbD_ofBool]; simp
theorem Select.word_calibrating (x : Select) : x.word.getLsbD 6 = x.calibrating := by
  unfold Select.word; simp only [BitVec.getLsbD_append, BitVec.getLsbD_ofBool]; simp
theorem Select.word_belowNoise (x : Select) : x.word.getLsbD 5 = x.belowNoise := by
  unfold Select.word; simp only [BitVec.getLsbD_append, BitVec.getLsbD_ofBool]; simp
theorem Select.word_idleExpired (x : Select) : x.word.getLsbD 4 = x.idleExpired := by
  unfold Select.word; simp only [BitVec.getLsbD_append, BitVec.getLsbD_ofBool]; simp
theorem Select.word_gateOk (x : Select) : x.word.getLsbD 3 = x.gateOk := by
  unfold Select.word; simp only [BitVec.getLsbD_append, BitVec.getLsbD_ofBool]; simp
theorem Select.word_po1 (x : Select) : x.word.getLsbD 2 = x.po.getLsbD 1 := by
  unfold Select.word; simp only [BitVec.getLsbD_append, BitVec.getLsbD_ofBool]; simp
theorem Select.word_po0 (x : Select) : x.word.getLsbD 1 = x.po.getLsbD 0 := by
  unfold Select.word; simp only [BitVec.getLsbD_append, BitVec.getLsbD_ofBool]; simp
theorem Select.word_colonFound (x : Select) : x.word.getLsbD 0 = x.colonFound := by
  unfold Select.word; simp only [BitVec.getLsbD_append, BitVec.getLsbD_ofBool]; simp

/-- A row matches when each of its fixed bits has the row's value. -/
theorem TickRow.matches_iff (r : TickRow) (sel : BitVec 16) :
    r.matches sel = true ↔ ∀ k, k < 16 → (sel.getLsbD k && r.mask.getLsbD k) = r.value.getLsbD k := by
  unfold TickRow.matches
  rw [beq_iff_eq]
  constructor
  · intro h k _
    have := congrArg (fun z => BitVec.getLsbD z k) h
    simpa using this
  · intro h
    apply BitVec.eq_of_getLsbD_eq
    intro k hk
    simpa using h k hk

end Sys2Proof.Machine
end

