-- ==== Sys2Proof/Tests/Slice0.lean ====
section
/-! SUPPORT. Tests: ill-formed terms that the checks refuse, words written out from the spec's encodings, vectors of
spec/95_test_vectors.md on single steps, and for every obligation with hypotheses a witness that meets them. -/

namespace Sys2Proof.Tests

open Sys2Proof Sys2Proof.Machine

-- Concrete words and states reduce deeply; one theorem at a time keeps the number of threads of a whole-package compile small.
set_option maxRecDepth 20000
set_option Elab.async false

/-- The default parameters. -/
abbrev std : Params := Params.default

/-- Other parameters: the line rests at 1, times have 24 bits, everything is twice as fast. -/
def inverted : Params :=
  { std with tHalf := 1000, tIdle := 20000, tTail := 20000, tNoise := 750, tSTimeout := 2500000, tsW := 24, idleLevel := true }

/-! ### WellFormed refuses -/

theorem test_wf_encFrame_short : Instr.wf std (Instr.encFrame [0#8, 0#8, 0#8, 0#8, 0#8]) = false := by decide
theorem test_wf_encFrame_long : Instr.wf std (Instr.encFrame (List.replicate 262 0#8)) = false := by decide +kernel
theorem test_wf_frmXor_long : Instr.wf std (Instr.frmXor (List.replicate 256 0#8)) = false := by decide +kernel
theorem test_wf_frmBuild_long : Instr.wf std (Instr.frmBuild (List.replicate 256 0#8)) = false := by decide +kernel
theorem test_wf_frmSerialize_length : Instr.wf std (Instr.frmSerialize ⟨2#8, [0x3A#8], 0x3A#8⟩) = false := by decide
theorem test_wf_frmParse_long : Instr.wf std (Instr.frmParse (List.replicate 262 0#8)) = false := by decide +kernel
theorem test_wf_credSplit_long : Instr.wf std (Instr.credSplit (List.replicate 256 0#8)) = false := by decide +kernel
theorem test_wf_ports_missing_byte : Ports.wf std ({ quietPorts with txPayload := [0x3A#8], txLen := 2#8 } : Ports) = false := by decide
theorem test_wf_ports_too_long : Ports.wf std ({ quietPorts with txPayload := List.replicate 256 0#8 } : Ports) = false := by decide +kernel
theorem test_wf_code_past_frame : (Code.byte 9 3#8 0#8).wf = false := by decide
theorem test_wf_accepts_bounds :
    Instr.wf std (Instr.encFrame (List.replicate 6 0#8)) = true ∧ Instr.wf std (Instr.encFrame (List.replicate 261 0#8)) = true ∧
      Instr.wf std (Instr.frmBuild (List.replicate 255 0#8)) = true ∧ (Code.byte 8 3#8 0#8).wf = true := by decide +kernel
/-- The premises of R9 hold of the defaults, and of parameters with another width, idle level and timing; `BC_W` is 12 at the default
`RAW_CAP` (R8); each premise can fail. -/
theorem test_parameters :
    std.premises = true ∧ std.fits = true ∧ std.bcW = 12 ∧ inverted.premises = true ∧ inverted.fits = true ∧
    ({ std with tNoise := 1800 } : Params).premises = false ∧ ({ std with tsW := 23 } : Params).premises = false ∧
    ({ std with tTail := 39999 } : Params).premises = false ∧ ({ std with rawCap := 260 } : Params).fits = false := by decide

/-! ### Decoding, on words written out bit by bit from R77, R71 and R73 (95_test_vectors.md 2.7) -/

theorem test_decode_reset_and_sender :
    decode std (.tick 0b1000000000000000#16) = .ok .sysReset ∧ decode std (.tick 0b1111111111111111#16) = .ok .sysReset ∧
    decode std (.tick 0b0000000000000000#16) = .ok .sWait ∧ decode std (.tick 0b0000100000000000#16) = .ok .sTrigger ∧
    decode std (.tick 0b0001000000000000#16) = .ok .sTxtick ∧ decode std (.tick 0b0001100000000000#16) = .ok .sTxtick ∧
    decode std (.tick 0b0001010000000000#16) = .ok .sTxdone ∧ decode std (.tick 0b0010000000000000#16) = .ok .sCool ∧
    decode std (.tick 0b0010010000000000#16) = .ok .sCool ∧ decode std (.tick 0b0010001000000000#16) = .ok .sTimeout ∧
    decode std (.tick 0b0011000000000000#16) = .ok .sHalt ∧ decode std (.tick 0b0011111111111111#16) = .ok .sHalt := by decide +kernel

theorem test_decode_decoder :
    decode std (.tick 0b0100000100000000#16) = .ok .decSeed ∧ decode std (.tick 0b0100000100010000#16) = .ok .decSeed ∧
    decode std (.tick 0b0100000111000000#16) = .ok .decCal ∧ decode std (.tick 0b0100000111100000#16) = .ok .decCal ∧
    decode std (.tick 0b0100000110100000#16) = .ok .decReject ∧ decode std (.tick 0b0100000110000000#16) = .ok .decBit := by decide +kernel

theorem test_decode_receiver :
    decode std (.tick 0b0100000000000000#16) = .ok .rQuiet ∧ decode std (.tick 0b0100000000010000#16) = .ok .rQuiet ∧
    decode std (.tick 0b0100000010000000#16) = .ok .rInframe ∧ decode std (.tick 0b0100000010010000#16) = .ok .rDiscard ∧
    decode std (.tick 0b0100000110010000#16) = .ok .rDiscard ∧ decode std (.tick 0b0100000010010110#16) = .ok .rDiscard ∧
    decode std (.tick 0b0100000010011000#16) = .ok .rAccept ∧ decode std (.tick 0b0100000110011001#16) = .ok .rAccept ∧
    decode std (.tick 0b0100000010011010#16) = .ok .rRejectSig ∧ decode std (.tick 0b0100000010011100#16) = .ok .rRejectTrunc ∧
    decode std (.tick 0b0100000010011110#16) = .ok .rRejectChk ∧ decode std (.tick 0b0101000000000001#16) = .ok .rApply ∧
    decode std (.tick 0b0101000000000000#16) = .ok .rCrederr ∧ decode std (.tick 0b0101111111111110#16) = .ok .rCrederr ∧
    decode std (.tick 0b0110000000000000#16) = .ok .rDone ∧ decode std (.tick 0b0111000000000000#16) = .ok .rRsvd := by decide +kernel

theorem test_decode_wire :
    decode std (.wire true 1) = .ok .encStart ∧ decode std (.wire false 1) = .ok .encBit0 ∧
    decode std (.wire false 2) = .ok .encBit1 ∧ decode std (.wire false 20) = .ok .encStop ∧
    decode std (.wire false 0) = .error .notASymbol ∧ decode std (.wire true 0) = .ok .encStart ∧
    decode std (.wire true 20) = .ok .encStart := by decide

theorem test_decode_byte :
    decode std (.byte 0 5#8 0b01100011#8) = .ok .frameSig0 ∧ decode std (.byte 1 5#8 0b11111001#8) = .ok .frameSig1 ∧
    decode std (.byte 2 5#8 0b01011100#8) = .ok .frameSig2 ∧ decode std (.byte 3 5#8 0b00011011#8) = .ok .frameSig3 ∧
    decode std (.byte 4 5#8 0b00000101#8) = .ok (.frameLen 5#8) ∧ decode std (.byte 5 5#8 0b01001000#8) = .ok (.framePayload 0x48#8) ∧
    decode std (.byte 9 5#8 0b01101111#8) = .ok (.framePayload 0x6F#8) ∧
    decode std (.byte 10 5#8 0b01000010#8) = .ok (.frameChecksum 0x42#8) ∧
    decode std (.byte 11 5#8 0b10101010#8) = .error .pastFrame ∧
    decode std (.byte 0 5#8 0b00000000#8) = .error .signatureMismatch := by decide

/-- Bare words of the opcode table: a select word, the units of R71, the signature constants; a length the table has not. -/
theorem test_decodeTableWord :
    decodeTableWord 16 0x8000 = some .sysReset ∧ decodeTableWord 16 0x4080 = some .rInframe ∧
    decodeTableWord 8 1 = some .encStart ∧ decodeTableWord 8 2 = some .encBit1 ∧ decodeTableWord 8 20 = some .encStop ∧
    decodeTableWord 8 0x63 = some .frameSig0 ∧ decodeTableWord 8 0x1B = some .frameSig3 ∧
    decodeTableWord 8 5 = some (.frameLen 5#8) ∧ decodeTableWord 32 0 = none := by decide +kernel

/-! ### Small states -/

/-- Inputs of a tick that is no reset. -/
def portsAt (t : Nat) (lvl : Level) : Ports := { quietPorts with now := t, rxLevel := lvl }

/-- A device after reset, with the inputs of one tick placed. -/
def device (r : Role) (p : Ports) : State := { State.resetAs std r with stimuli := [.tick p] }

/-- A session in which calibration is done. -/
def sessionAt (period edge bits : Nat) (sh : Byte) : Session :=
  { Session.empty std with
      seeded := true, calibrating := false, nominalPeriod := period, lastEdgeTime := edge, bitCount := bits, shift := sh }

/-- A receiver whose session holds the given bytes, its line quiet since instant 1000, at the tick `p`. -/
def holding (bytes : List Byte) (period : Nat) (p : Ports) : State :=
  { device .receiver p with
    session := sessionAt period 1000 (8 * bytes.length) 0#8
    frontEnd := { prevSample := false, lastChangeTime := 1000 }
    mem := (State.resetAs std .receiver).mem.copyIn .rawBytes bytes }

/-- A receiver about to apply the given payload. -/
def applying (payload : List Byte) : State :=
  { device .receiver (portsAt 2000 false) with
    st := 1#2
    frame := { valid := true, len := BitVec.ofNat 8 payload.length, checksum := xorBytes payload }
    mem := (State.resetAs std .receiver).mem.copyIn .framePayload payload }

/-- A sender in a state, with a transmit frame started at instant 1000, at the tick `p`. -/
def sending (st : BitVec 2) (bytes : List Byte) (p : Ports) : State :=
  { device .sender p with
    st := st
    tx := { frameLen := BitVec.ofNat 9 bytes.length, startTime := 1000, level := false }
    mem := (State.resetAs std .sender).mem.copyIn .txFrame bytes }

/-- What holds of the next state; false where there is none. -/
def gives (r : Host.Outcome State Fault Refusal) (f : State → Bool) : Bool :=
  match r with
  | .next t => f t
  | .fault _ => false
  | .refused _ => false

/-- The operation of the next step. -/
def opOf (s : State) : Option Instr :=
  match decode s.params s.fetch.2 with
  | .ok i => some i
  | .error _ => none

theorem exists_next {r : Host.Outcome State Fault Refusal} (h : gives r (fun _ => true) = true) : ∃ t, r = .next t := by
  cases r with
  | next t => exact ⟨t, rfl⟩
  | fault _ => simp [gives] at h
  | refused _ => simp [gives] at h

/-- The serialised frame of "Hello" (X6). -/
def helloFrame : List Byte := [0x63#8, 0xF9#8, 0x5C#8, 0x1B#8, 5#8, 0x48#8, 0x65#8, 0x6C#8, 0x6C#8, 0x6F#8, 0x42#8]

/-- The payload "a:b" (P2). -/
def abPayload : List Byte := [0x61#8, 0x3A#8, 0x62#8]

/-- The shortest frame, of the empty payload (D-F3). -/
def emptyFrame : List Byte := [0x63#8, 0xF9#8, 0x5C#8, 0x1B#8, 0#8, 0#8]

/-! ### Arithmetic (D-A1 to D-A13) -/

theorem test_scale : scale std 11 = 9 ∧ scale std 1667 = 1500 ∧ scale std 1668 = 1501 ∧ scale std 40000 = 36000 := by decide
theorem test_isLong : isLong 2699 1800 = false ∧ isLong 2700 1800 = true ∧ isLong 0 0 = true := by decide
theorem test_elapsed_wraps : elapsed std 5 4294967291 = 10 ∧ elapsed std 99 100 = 4294967295 := by decide
theorem test_minUpdate_strict : minUpdate 1800 1800 = 1800 ∧ minUpdate 1800 1799 = 1799 := by decide

/-! ### The encoder (D-E3, D-E5 to D-E9) and the frame bytes -/

theorem test_encByte_63 : gives (exec (.encByte 0x63#8) State.reset) (fun t => t.result == .actions
    [⟨true, 2000⟩, ⟨true, 2000⟩, ⟨false, 2000⟩, ⟨true, 2000⟩, ⟨false, 2000⟩, ⟨true, 2000⟩, ⟨true, 2000⟩, ⟨true, 2000⟩,
     ⟨true, 2000⟩, ⟨false, 2000⟩, ⟨true, 2000⟩, ⟨false, 2000⟩]) = true := by decide +kernel
theorem test_encFrame_empty : gives (exec (.encFrame []) State.reset)
    (fun t => t.result == .actions [⟨true, 2000⟩, ⟨true, 40000⟩]) = true := by decide +kernel
theorem test_total : total std emptyFrame = 174000 ∧ total std helloFrame = 302000 ∧ total std [] = 42000 := by decide +kernel
theorem test_levelAt : ([0, 1999, 2000, 3999, 4000, 7999, 8000, 133999, 134000, 174000].map (levelAt std emptyFrame)) =
    [true, true, false, false, true, true, false, true, false, false] := by decide +kernel
theorem test_frameLen_sends : gives (exec (.frameLen 0#8) State.reset)
    (fun t => t.result == .sent 0#8 (List.replicate 8 ⟨true, 2000⟩)) = true := by decide +kernel

/-! ### The decoder (D-D1 to D-D18) -/

theorem test_seed : gives (step (device .receiver (portsAt 1000 true))) (fun t =>
    t.session.seeded && t.session.lastEdgeTime == 1000 && t.session.lastLevel && t.session.calibrating &&
      t.frontEnd == { prevSample := true, lastChangeTime := 1000 }) = true := by decide +kernel
theorem test_cal_short : gives (exec .decCal { device .receiver quietPorts with
      ports := portsAt 1400 false, session := { Session.empty std with seeded := true, lastEdgeTime := 1000 } })
    (fun t => t.session.nominalPeriod == 360 && !t.session.calibrating) = true := by decide +kernel
theorem test_reject_then_accept :
    opOf (holding [] 1800 (portsAt 2499 true)) = some .decReject ∧ opOf (holding [] 1800 (portsAt 2500 true)) = some .decBit := by
  decide +kernel
theorem test_bit_closes_byte : gives (exec .decBit { device .receiver quietPorts with
      ports := portsAt 27000 false, session := sessionAt 1800 23000 7 0x31#8 })
    (fun t => t.mem.readByte .rawBytes 0 == 0x63#8 && t.session.shift == 0#8 && t.session.bitCount == 8) = true := by decide +kernel
theorem test_bit_saturates : gives (exec .decBit { device .receiver quietPorts with
      ports := portsAt 27000 false, session := sessionAt 1800 23000 2088 0x31#8 })
    (fun t => t.session.bitCount == 2088 && t.session.shift == 0x31#8 && t.session.lastEdgeTime == 27000 &&
      t.mem.rawBytes == []) = true := by decide +kernel
theorem test_decReset : gives (exec .decReset (holding [1#8] 1800 quietPorts)) (fun t =>
    t.session == Session.empty std && t.mem.readByte .rawBytes 0 == 1#8) = true := by decide +kernel
theorem test_idle_boundary :
    opOf (holding helloFrame 1501 (portsAt 40999 false)) = some .rInframe ∧
    opOf (holding helloFrame 1501 (portsAt 41000 false)) = some .rAccept ∧
    opOf (holding helloFrame 1500 (portsAt 41000 false)) = some .rDiscard := by decide +kernel
theorem test_quiet_without_session : opOf (device .receiver (portsAt 1000000 false)) = some .rQuiet := by decide +kernel

/-! ### The framer (D-F1 to D-F16) -/

theorem test_xor : xorBytes [0x48#8, 0x65#8, 0x6C#8, 0x6C#8, 0x6F#8] = 0x42#8 ∧ xorBytes abPayload = 0x39#8 := by decide
theorem test_build_serialize : serialize std (buildFrame abPayload) =
    [0x63#8, 0xF9#8, 0x5C#8, 0x1B#8, 3#8, 0x61#8, 0x3A#8, 0x62#8, 0x39#8] := by decide +kernel
theorem test_parse_errors :
    parseFrame std [0x64#8, 0xF9#8] = .err .truncated ∧ parseFrame std std.sig = .err .truncated ∧
    parseFrame std [0x63#8, 0xF9#8, 0x5C#8, 0x1C#8] = .err .signatureMismatch ∧
    parseFrame std [0x63#8, 0xF9#8, 0x5C#8, 0x1B#8, 0#8] = .err .truncated ∧
    parseFrame std [0x63#8, 0xF9#8, 0x5C#8, 0x1B#8, 0#8, 1#8] = .err .checksumMismatch ∧
    parseFrame std [0x63#8, 0xF9#8, 0x5C#8, 0x1B#8, 0xFF#8, 1#8, 2#8, 3#8] = .err .truncated := by decide +kernel
theorem test_parse_accepts :
    parseFrame std [0x63#8, 0xF9#8, 0x5C#8, 0x1B#8, 1#8, 0x3A#8, 0x3A#8, 0x99#8, 0x98#8] = .ok ⟨1#8, [0x3A#8], 0x3A#8⟩ ∧
    parseFrame std [0x63#8, 0xF9#8, 0x5C#8, 0x1B#8, 1#8, 0x61#8, 0x61#8, 0x62#8, 0x39#8] = .ok ⟨1#8, [0x61#8], 0x61#8⟩ := by decide +kernel
theorem test_split :
    splitCredentials std [0x61#8, 0x3A#8, 0x62#8, 0x3A#8, 0x63#8] = .ok [0x61#8] [0x62#8, 0x3A#8, 0x63#8] ∧
    splitCredentials std [0x3A#8] = .ok [] [] ∧ splitCredentials std [0x80#8, 0x3A#8, 0xFF#8] = .ok [0x80#8] [0xFF#8] ∧
    splitCredentials std [] = .err := by decide

/-! ### The Sender (D-S1 to D-S11) -/

theorem test_trigger : gives (step (device .sender
      { portsAt 1000 false with trigger := true, txPayload := abPayload, txLen := 3#8 })) (fun t =>
    t.txFrameBytes == [0x63#8, 0xF9#8, 0x5C#8, 0x1B#8, 3#8, 0x61#8, 0x3A#8, 0x62#8, 0x39#8] && t.tx.frameLen == 9#9 &&
      t.tx.startTime == 1000 && t.tx.level && t.st == 1#2) = true := by decide +kernel
theorem test_txtick_levels : ([2999, 3000, 5000, 8999, 9000].map fun n =>
      gives (step (sending 1#2 helloFrame (portsAt n false))) (fun t => t.tx.level)) = [true, false, true, true, false] := by
  decide +kernel
theorem test_txdone_boundary :
    opOf (sending 1#2 helloFrame (portsAt 302999 false)) = some .sTxtick ∧
    gives (step (sending 1#2 helloFrame (portsAt 303000 false))) (fun t => t.st == 2#2 && !t.tx.level) = true := by decide +kernel
theorem test_timeout_boundary :
    opOf (sending 2#2 [] (portsAt 5000999 false)) = some .sCool ∧
    gives (step (sending 2#2 [] (portsAt 5001000 false))) (fun t =>
      t.st == 3#2 && t.outcome == .senderTimeout && t.outcomeStrobe && t.done) = true := by decide +kernel
theorem test_time_wraps : gives (step { sending 1#2 emptyFrame (portsAt 704 false) with
      tx := { frameLen := 6#9, startTime := 4294967000, level := false } }) (fun t => t.tx.level && t.st == 1#2) = true := by
  decide +kernel
theorem test_reset_takes_strap : gives (step { sending 3#2 [] { portsAt 7 true with rst := true, roleStrap := .receiver } with
      outcome := .senderTimeout }) (fun t =>
    t == { State.resetAs std .receiver with ports := { portsAt 7 true with rst := true, roleStrap := .receiver } }) = true := by
  decide +kernel

/-! ### The Receiver (D-R1 to D-R13, P8 row 4) -/

theorem test_accept : gives (step (holding helloFrame 1800 (portsAt 41000 true))) (fun t =>
    t.frame == { valid := true, len := 5#8, checksum := 0x42#8 } &&
      t.framePayloadBytes == [0x48#8, 0x65#8, 0x6C#8, 0x6C#8, 0x6F#8] && t.session == Session.empty std &&
      t.outcome == .frameOk && t.outcomeStrobe && t.st == 1#2 && t.frontEnd.prevSample) = true := by decide +kernel
theorem test_rejects :
    gives (step (holding (helloFrame.set 0 0#8) 1800 (portsAt 41000 false))) (fun t => t.outcome.bits == 2#3 && t.st == 0#2) = true ∧
    gives (step (holding (helloFrame.take 7) 1800 (portsAt 41000 false))) (fun t => t.outcome.bits == 4#3 && t.st == 0#2) = true ∧
    gives (step (holding (helloFrame.set 9 0x6E#8) 1800 (portsAt 41000 false))) (fun t => t.outcome.bits == 3#3 && t.st == 0#2) = true := by
  decide +kernel
theorem test_discard_seeds_again : gives (step { holding [] 1800 (portsAt 45000 false) with
      session := sessionAt 1800 5000 1 0#8, frontEnd := { prevSample := true, lastChangeTime := 5000 } }) (fun t =>
    t.outcome == .noiseOnlySession && t.outcomeStrobe &&
      t.session == { Session.empty std with seeded := true, lastEdgeTime := 45000 }) = true := by decide +kernel
theorem test_apply : gives (step { applying abPayload with outcome := .frameOk }) (fun t =>
    t.cred == { valid := true, ssidLen := 1#8, passwordLen := 1#8 } && t.ssidBytes == [0x61#8] && t.passwordBytes == [0x62#8] &&
      !t.frame.valid && t.outcome == .frameOk && !t.outcomeStrobe && t.st == 2#2 && t.done) = true := by decide +kernel
theorem test_crederr : gives (step (applying [])) (fun t =>
    t.outcome == .credentialFormatError && t.outcomeStrobe && !t.frame.valid && t.st == 0#2) = true := by decide +kernel
theorem test_done_samples : gives (step { device .receiver (portsAt 9 true) with st := 2#2 }) (fun t =>
    t.frontEnd == { prevSample := true, lastChangeTime := 9 } && t.st == 2#2 && !t.outcomeStrobe) = true := by decide +kernel

/-- A placed table word is the first thing that a step from reset performs. -/
theorem test_withFetchWord :
    opOf (State.reset.withFetchWord 16 0b0101000000000001) = some .rApply ∧
    opOf (State.reset.withFetchWord 8 0b00010100) = some .encStop ∧
    gives (step (State.reset.withFetchWord 16 0b0101000000000001)) (fun t => t.cred.valid && t.st == 2#2) = true := by decide +kernel

/-- At other parameters: the line rests at 1, the first bit edge falls, times wrap at 24 bits (R8, R11, R97). -/
theorem test_other_parameters :
    gives (step { State.resetAs inverted .sender with stimuli := [.tick { portsAt (2 ^ 24 + 5) true with trigger := true }] })
      (fun t => !t.tx.level && t.tx.startTime == 5 && t.st == 1#2) = true ∧
    (State.resetAs inverted .receiver).edge = true ∧ levelAt inverted emptyFrame 999 = false ∧
    levelAt inverted emptyFrame 1000 = true ∧ elapsed inverted 5 (2 ^ 24 - 5) = 10 ∧ total inverted emptyFrame = 87000 := by
  decide +kernel

/-- A transmitting sender and a receiver about to apply. -/
def linked : System := { sender := sending 1#2 helloFrame quietPorts, receiver := applying abPayload }

/-- Two devices on the channel (R184): one reset leaves the other device alone, and no reset changes a role. -/
theorem test_system_resets_are_separate :
    (match linked.tick
        { now := 5000, sender := quietPorts, receiver := { quietPorts with rst := true } } with
      | .next z => z.wf && z.sender.st == 1#2 && z.sender.tx.level && z.receiver.st == 0#2 && !z.receiver.cred.valid
      | .fault _ => false
      | .refused _ => false) = true ∧
    (match linked.tick
        { now := 2000, sender := { quietPorts with rst := true, roleStrap := .receiver }, receiver := quietPorts } with
      | .next z => z.wf && z.sender.st == 0#2 && z.receiver.cred.valid && z.receiver.st == 2#2
      | .fault _ => false
      | .refused _ => false) = true := by decide +kernel

/-! ### Witnesses: states and operands that meet the hypotheses of each obligation, clause by clause, at the clauses' boundaries -/

theorem witness_DecodeInvertsEncode :
    2 < std.tTail / std.tHalf ∧
    encodeAt std ⟨0xFFFF#16, 3#8, 2⟩ .sTrigger = some (.tick 0x0FFF#16) ∧ encodeAt std ⟨0#16, 0#8, 0⟩ .rRsvd = some (.tick 0x7000#16) ∧
    encodeAt std ⟨0#16, 0#8, 0⟩ .encStop = some (.wire false 20) ∧
    encodeAt std ⟨0#16, 3#8, 2⟩ (.framePayload 7#8) = some (.byte 7 3#8 7#8) ∧
    encodeAt std ⟨0#16, 255#8, 254⟩ (.framePayload 7#8) = some (.byte 259 255#8 7#8) ∧
    encodeAt std ⟨0#16, 0#8, 0⟩ (.frameChecksum 9#8) = some (.byte 5 0#8 9#8) := by decide +kernel

theorem witness_SerialisedFrameBytesDecodeByPosition :
    (⟨0#8, [], 0#8⟩ : Frame).wf = true ∧ (⟨3#8, abPayload, 0x39#8⟩ : Frame).wf = true ∧
    (⟨3#8, abPayload, 0x39#8⟩ : Frame).payload[0]? = some 0x61#8 ∧ (⟨3#8, abPayload, 0x39#8⟩ : Frame).payload[2]? = some 0x62#8 ∧
    (3#8 : Byte).toNat + 6 ≤ 9 := by decide

/-- The clauses at 0, 1, 2, 19, 20 and 31 units, at the defaults. -/
theorem witness_WireIntervalsDecodeLeniently :
    2 < std.tTail / std.tHalf ∧ (2 ≤ 2 ∧ 2 < std.tTail / std.tHalf) ∧ (2 ≤ 19 ∧ 19 < std.tTail / std.tHalf) ∧
    std.tTail / std.tHalf ≤ 20 ∧ std.tTail / std.tHalf ≤ 31 := by decide


/-- The operation of a sender's tick right after reset, whatever the inputs. -/
theorem decode_after_reset : ∀ a b c d e f g : Bool,
    decodeTick (Select.word ⟨a, false, 0#2, b, c, d, e, false, true, f, g, false, 0b10#2, false⟩) =
      .ok (if a then .sysReset else if b then .sTrigger else .sWait) := by decide +kernel

theorem select_after_reset (p : Ports) : ∃ c d e f g : Bool,
    ({ State.reset with ports := p, draws := 1, outcomeStrobe := false } : State).select =
      ⟨p.rst, false, 0#2, p.trigger, c, d, e, false, true, f, g, State.reset.session.gateOk std, State.reset.parsed.bits, false⟩ :=
  ⟨_, _, _, _, _, rfl⟩

/-- Free inputs: right after reset the next operation is one that answers, whatever the environment presents. -/
theorem witness_StepRunsTheDecodedOperation_free :
    State.reset.stimuli = [] ∧ ∃ i u,
      decodeTick ({ State.reset with ports := Config.environment 0, draws := 1, outcomeStrobe := false } : State).sel = .ok i ∧
      exec i { State.reset with ports := Config.environment 0, draws := 1, outcomeStrobe := false } = .next u := by
  obtain ⟨c, d, e, f, g, h⟩ := select_after_reset (Config.environment 0)
  refine ⟨rfl, if (Config.environment 0).rst then .sysReset else if (Config.environment 0).trigger then .sTrigger else .sWait, ?_⟩
  rw [State.sel, h, show State.reset.session.gateOk std = false by decide, show State.reset.parsed.bits = 0b10#2 by decide +kernel,
    decode_after_reset]
  cases (Config.environment 0).rst <;> cases (Config.environment 0).trigger <;> exact ⟨_, rfl, rfl⟩

theorem witness_StepRunsTheDecodedOperation_placed :
    (device .receiver (portsAt 1000 true)).stimuli = [.tick (portsAt 1000 true)] ∧
    (decodeTick ({ device .receiver (portsAt 1000 true) with
      ports := portsAt 1000 true, stimuli := [], outcomeStrobe := false } : State).sel = .ok .decSeed) ∧
    ∃ u, exec .decSeed { device .receiver (portsAt 1000 true) with
      ports := portsAt 1000 true, stimuli := [], outcomeStrobe := false } = .next u :=
  ⟨rfl, by decide +kernel, exists_next rfl⟩

theorem witness_StepRunsTheDecodedOperation_bare :
    (decode std (.wire false 2) = .ok .encBit1 ∧ ∃ u, exec .encBit1 { State.reset with stimuli := [] } = .next u) ∧
    (decode std (.byte 10 5#8 0x42#8) = .ok (.frameChecksum 0x42#8) ∧
      ∃ u, exec (.frameChecksum 0x42#8) { State.reset with stimuli := [] } = .next u) :=
  ⟨⟨by decide, exists_next rfl⟩, ⟨by decide, exists_next rfl⟩⟩

theorem witness_TickOperationsLeaveFrontEndAndRole :
    decodeTick 0b0100000110000000#16 = .ok .decBit ∧ Instr.decBit ≠ .sysReset ∧
      ∃ t, exec .decBit (holding [] 1800 quietPorts) = .next t :=
  ⟨by decide +kernel, by decide, exists_next rfl⟩

/-- One tick that writes the outcome, one that does not, one that resets; a sender and a receiver that are done, and not. -/
theorem witness_StrobeMarksTheOutcomeWrites :
    (∃ sel, (holding helloFrame 1800 (portsAt 41000 false)).fetch.2 = .tick sel) ∧
    (decode std (holding helloFrame 1800 (portsAt 41000 false)).fetch.2 = .ok .rAccept ∧
      ∃ t, step (holding helloFrame 1800 (portsAt 41000 false)) = .next t) ∧
    (decode std (device .receiver (portsAt 5 false)).fetch.2 = .ok .rQuiet ∧ ∃ t, step (device .receiver (portsAt 5 false)) = .next t) ∧
    (decode std (device .sender { quietPorts with rst := true }).fetch.2 = .ok .sysReset ∧
      ∃ t, step (device .sender { quietPorts with rst := true }) = .next t) ∧
    (sending 3#2 [] quietPorts).done = true ∧ (sending 2#2 [] quietPorts).done = false ∧
    ({ device .receiver quietPorts with st := 2#2 } : State).done = true ∧ (device .receiver quietPorts).done = false :=
  ⟨⟨_, rfl⟩, ⟨by decide +kernel, exists_next (by decide +kernel)⟩, ⟨by decide +kernel, exists_next (by decide +kernel)⟩,
    ⟨by decide +kernel, exists_next (by decide +kernel)⟩, by decide, by decide, by decide, by decide⟩

theorem witness_ResetTickHasPriority :
    (sending 1#2 helloFrame { quietPorts with rst := true, trigger := true }).stimuli =
      [.tick { quietPorts with rst := true, trigger := true }] ∧
    ({ quietPorts with rst := true, trigger := true } : Ports).rst = true := ⟨rfl, rfl⟩

theorem witness_QuietOperationsWriteNothing :
    Instr.sWait ∈ [Instr.sWait, .sCool, .sHalt, .decReject, .rQuiet, .rInframe, .rDone, .rRsvd] ∧
    Instr.rRsvd ∈ [Instr.sWait, .sCool, .sHalt, .decReject, .rQuiet, .rInframe, .rDone, .rRsvd] := by decide

/-- A presented byte, the last one, of the payload that a trigger latches. -/
theorem witness_TriggerLatchesAndStartsTheFrame :
    0 < State.reset.params.tHalf ∧
    2 < (3#8 : Byte).toNat ∧ ({ quietPorts with txPayload := abPayload, txLen := 3#8 } : Ports).txPayload[2]? = some 0x62#8 := by decide

/-- Each row of the Sender's table, on both sides of its thresholds. -/
theorem witness_SenderFollowsItsTransitionTable :
    (sending 0#2 [] (portsAt 9 false)).role = .sender ∧ (portsAt 9 false).rst = false ∧
    (portsAt 9 false).trigger = false ∧ ({ portsAt 9 false with trigger := true } : Ports).trigger = true ∧
    elapsed std (portsAt 302999 false).now 1000 < total std (sending 1#2 helloFrame (portsAt 302999 false)).txFrameBytes ∧
    total std (sending 1#2 helloFrame (portsAt 303000 false)).txFrameBytes ≤ elapsed std (portsAt 303000 false).now 1000 ∧
    elapsed std (portsAt 5000999 false).now 1000 < std.tSTimeout ∧
    std.tSTimeout ≤ elapsed std (portsAt 5001000 false).now 1000 := by decide +kernel

theorem witness_SenderIgnoresItsLineInput :
    (sending 1#2 helloFrame (portsAt 5000 false)).role = .sender ∧ (portsAt 5000 false).rst = false ∧
    ∃ t, step (sending 1#2 helloFrame (portsAt 5000 false)) = .next t :=
  ⟨rfl, rfl, exists_next (by decide +kernel)⟩

theorem witness_PayloadIsLatchedAtTheTrigger :
    (sending 1#2 helloFrame (portsAt 5000 false)).role = .sender ∧ (sending 1#2 helloFrame (portsAt 5000 false)).st ≠ 0#2 ∧
    (portsAt 5000 false).rst = false ∧ ∃ t, step (sending 1#2 helloFrame (portsAt 5000 false)) = .next t :=
  ⟨rfl, by decide, rfl, exists_next (by decide +kernel)⟩

/-- Clauses on segments and levels: the first and the last bit, both ends of the start pulse, the end of the waveform. -/
theorem witness_WaveformSegmentsAndLevels :
    (wireBits [0x63#8])[0]? = some false ∧ (wireBits [0x63#8])[7]? = some true ∧
    (segments std [0x63#8])[0]? = some ⟨true, 2000⟩ ∧ duration ((segments std [0x63#8]).take 0) ≤ 0 ∧
    1999 < duration ((segments std [0x63#8]).take 1) ∧ duration ((segments std [0x63#8]).take 1) ≤ 2000 ∧
    total std [0x63#8] ≤ 66000 := by decide +kernel

theorem witness_WireBitOrder : 0 < 8 * [0x63#8, 0xF9#8].length ∧ 15 < 8 * [0x63#8, 0xF9#8].length := by decide

/-- The assembler's clauses: a full session, a bit within a byte, the eighth bit of the last byte; both values of the bit. -/
theorem witness_AcceptedEdgeYieldsOneBit :
    (8 * std.rawCap ≤ (sessionAt 1800 1000 2088 0#8).bitCount) ∧
    ((sessionAt 1800 1000 6 0#8).bitCount < 8 * std.rawCap ∧ (sessionAt 1800 1000 6 0#8).bitCount % 8 ≠ 7) ∧
    ((sessionAt 1800 1000 2087 0#8).bitCount < 8 * std.rawCap ∧ (sessionAt 1800 1000 2087 0#8).bitCount % 8 = 7) ∧
    (2699 = elapsed std (portsAt 3699 true).now (sessionAt 1800 1000 6 0#8).lastEdgeTime ∧ ¬ 3 * min 1800 2699 ≤ 2 * 2699) ∧
    (2700 = elapsed std (portsAt 3700 true).now (sessionAt 1800 1000 6 0#8).lastEdgeTime ∧ 3 * min 1800 2700 ≤ 2 * 2700) := by
  decide +kernel

theorem witness_EightBitsCloseAByte :
    (sessionAt 1800 1000 0 0#8).bitCount % 8 = 0 ∧ (sessionAt 1800 1000 2080 0#8).bitCount % 8 = 0 ∧
    (sessionAt 1800 1000 2080 0#8).bitCount < 8 * std.rawCap := by decide

theorem witness_CalibratedPeriodNeverGrows :
    ∃ t, step (holding [] 1800 (portsAt 2700 true)) = .next t ∧ (holding [] 1800 (portsAt 2700 true)).session.calibrating = false ∧
      t.session.calibrating = false :=
  ⟨_, rfl, rfl, by decide +kernel⟩

/-- Both ways to fail the gate at their boundaries, and the gate passed with each parse result. -/
theorem witness_IdleTimeoutTakesTheArmOfItsResult :
    (holding [1#8, 2#8, 3#8] 1800 quietPorts).session.bitCount / 8 < 4 ∧
    (holding helloFrame 1500 quietPorts).session.nominalPeriod ≤ 1500 ∧
    4 ≤ (holding std.sig 1501 quietPorts).session.bitCount / 8 ∧
    1500 < (holding std.sig 1501 quietPorts).session.nominalPeriod ∧
    parseFrame std (holding emptyFrame 1501 quietPorts).closedBytes = .ok ⟨0#8, [], 0#8⟩ ∧
    parseFrame std (holding [0#8, 0#8, 0#8, 0#8] 1501 quietPorts).closedBytes = .err .signatureMismatch ∧
    parseFrame std (holding std.sig 1501 quietPorts).closedBytes = .err .truncated ∧
    parseFrame std (holding (emptyFrame.set 5 1#8) 1501 quietPorts).closedBytes = .err .checksumMismatch := by decide +kernel

/-- An edge, and no edge, one microsecond before the idle timeout. -/
theorem witness_ListeningTickIsDecEdge :
    ∀ lvl, (holding [] 1800 (portsAt 40999 lvl)).role = .receiver ∧ (holding [] 1800 (portsAt 40999 lvl)).st = 0#2 ∧
      (portsAt 40999 lvl).rst = false ∧
      ¬ ((holding [] 1800 (portsAt 40999 lvl)).session.seeded = true ∧
        std.tIdle ≤ elapsed std (portsAt 40999 lvl).now (holding [] 1800 (portsAt 40999 lvl)).frontEnd.lastChangeTime) ∧
      gives (step (holding [] 1800 (portsAt 40999 lvl))) (fun _ => true) = true := by decide +kernel

/-- The idle timeout at its first instant, with and without a coincident edge. -/
theorem witness_IdleTickIsDecIdle :
    ∀ lvl, (holding helloFrame 1800 (portsAt 41000 lvl)).role = .receiver ∧ (holding helloFrame 1800 (portsAt 41000 lvl)).st = 0#2 ∧
      (portsAt 41000 lvl).rst = false ∧ (holding helloFrame 1800 (portsAt 41000 lvl)).session.seeded = true ∧
      std.tIdle ≤ elapsed std (portsAt 41000 lvl).now (holding helloFrame 1800 (portsAt 41000 lvl)).frontEnd.lastChangeTime ∧
      gives (step (holding helloFrame 1800 (portsAt 41000 lvl))) (fun _ => true) = true := by decide +kernel

theorem witness_NoiseFreeTransmissionIsDecoded :
    (std.premises = true ∧ std.fits = true) ∧ (inverted.premises = true ∧ inverted.fits = true) ∧
    ([] : List Byte).length ≤ std.rawCap ∧ (List.replicate 261 0xA7#8).length ≤ std.rawCap := by decide +kernel

/-- The premises at the defaults with an error of 297 µs; a learned and a shrunken period, both ends of each range, the least long
interval (D-D11); the last error within the bound and the first beyond it. -/
theorem witness_JitterWithinTheBoundIsAbsorbed :
    (std.marginNum < std.marginDen ∧ 2297 < 2 ^ std.tsW) ∧
    (std.tNoise < scale std 1703 ∧ 2 * 2297 < 3 * scale std 1703 ∧ 3 * scale std 2297 ≤ 2 * 3703) ∧
    (1703 ≤ 1703 ∧ 1703 ≤ 2297) ∧ (1532 = scale std 1703 ∧ 2067 = scale std 2297) ∧
    (1703 ≤ scale std 2297 ∧ 1703 ≤ 2297) ∧ 3703 ≤ 3703 ∧ 297 ≤ 2000 ∧ 298 ≤ 2000 := by decide


theorem witness_ChecksumIsTheExclusiveOr : [1#8, 2#8, 3#8].Perm [3#8, 1#8, 2#8] := by decide

theorem witness_BuildAndSerialise : ([] : List Byte).length ≤ 255 ∧ (List.replicate 255 0xA7#8).length ≤ 255 := by decide +kernel

/-- Each test of the parser, at the first and the last length that it decides. -/
theorem witness_ParseTestsInOrder :
    ([] : List Byte).length < 4 ∧ [0x63#8, 0xF9#8, 0x5C#8].length < 4 ∧
    [0x63#8, 0xF9#8, 0x5C#8, 0x1C#8].take 4 ≠ [0x63#8, 0xF9#8, 0x5C#8, 0x1B#8] ∧
    [0x3A#8].length < (1#8 : Byte).toNat + 1 ∧
    [0x3A#8, 0x3A#8, 0x99#8] = [0x3A#8] ++ [0x3A#8] ++ [0x99#8] ∧ [0x3A#8].length = (1#8 : Byte).toNat ∧
    xorBytes [0x3A#8] = 0x3A#8 ∧ xorBytes [0x3A#8] ≠ 0x3B#8 := by decide

/-- A frame that parses, the bits of its payload, signature and checksum at both ends. -/
theorem witness_FramerProperties :
    parseFrame std helloFrame = .ok ⟨5#8, [0x48#8, 0x65#8, 0x6C#8, 0x6C#8, 0x6F#8], 0x42#8⟩ ∧
    frameValid ⟨5#8, [0x48#8, 0x65#8, 0x6C#8, 0x6C#8, 0x6F#8], 0x42#8⟩ = true ∧
    [0x48#8, 0x65#8, 0x6C#8, 0x6C#8, 0x6F#8][0]? = some 0x48#8 ∧ [0x48#8, 0x65#8, 0x6C#8, 0x6C#8, 0x6F#8][4]? = some 0x6F#8 ∧
    (serialize std ⟨5#8, [0x48#8, 0x65#8, 0x6C#8, 0x6C#8, 0x6F#8], 0x42#8⟩)[0]? = some 0x63#8 ∧
    (serialize std ⟨5#8, [0x48#8, 0x65#8, 0x6C#8, 0x6C#8, 0x6F#8], 0x42#8⟩)[3]? = some 0x1B#8 := by decide +kernel

theorem witness_ParseReadsNothingBeyondCapacity :
    8 * std.rawCap ≤ (sessionAt 1800 0 2088 0#8).bitCount ∧ 8 * std.rawCap ≤ (sessionAt 1800 0 4095 0#8).bitCount ∧
    261 ≤ std.rawCap := by decide

theorem witness_CredentialsSplitOnTheFirstColon : 0x3A#8 ∉ ([] : List Byte) ∧ 0x3A#8 ∉ [0x39#8, 0x3B#8] := by decide

/-- The raising operations, with and without a coincident edge. -/
theorem witness_RejectingOperationsRaiseAndListen :
    (Instr.rDiscard, OutcomeCode.noiseOnlySession, 5#3) ∈ [(Instr.rDiscard, OutcomeCode.noiseOnlySession, 5#3),
      (.rRejectSig, .signatureMismatch, 2#3), (.rRejectTrunc, .truncated, 4#3), (.rRejectChk, .checksumMismatch, 3#3)] ∧
    ({ device .receiver quietPorts with ports := portsAt 9 false } : State).ports.rxLevel = (device .receiver quietPorts).frontEnd.prevSample ∧
    ({ device .receiver quietPorts with ports := portsAt 9 true } : State).ports.rxLevel ≠ (device .receiver quietPorts).frontEnd.prevSample := by
  decide

theorem witness_AcceptTakesTheFrame :
    parseFrame std (holding helloFrame 1800 quietPorts).closedBytes = .ok ⟨5#8, [0x48#8, 0x65#8, 0x6C#8, 0x6C#8, 0x6F#8], 0x42#8⟩ ∧
    parseFrame std (holding emptyFrame 1800 quietPorts).closedBytes = .ok ⟨0#8, [], 0#8⟩ := by decide +kernel

theorem witness_ApplyHandsTheCredentialsOver :
    (applying abPayload).framePayloadBytes = [0x61#8] ++ [0x3A#8] ++ [0x62#8] ∧ 0x3A#8 ∉ [0x61#8] ∧
    (applying [0x3A#8]).framePayloadBytes = [] ++ [0x3A#8] ++ [] ∧ 0x3A#8 ∉ ([] : List Byte) := by decide +kernel

/-- Both sides of each stop, and ticks that select the two operations. -/
theorem witness_OperandlessOperationsStopAndAreNeverSelected :
    exec .rAccept (holding std.sig 1800 quietPorts) = .fault .noFrameToAccept ∧
    parseFrame std (holding std.sig 1800 quietPorts).closedBytes = .err .truncated ∧
    exec .rApply (applying []) = .fault .noColonToApply ∧ 0x3A#8 ∉ (applying []).framePayloadBytes ∧
    decodeTick ({ holding helloFrame 1800 quietPorts with ports := portsAt 41000 false } : State).sel = .ok .rAccept ∧
    decodeTick (applying abPayload).sel = .ok .rApply :=
  ⟨rfl, by decide +kernel, rfl, by decide +kernel, by decide +kernel, by decide +kernel⟩

/-- The Receiver's rows without a session: no edge and an edge; then each terminal or reserved state. -/
theorem witness_ReceiverFollowsItsTransitionTable_quiet :
    (device .receiver (portsAt 9 false)).role = .receiver ∧ (device .receiver (portsAt 9 false)).session.seeded = false ∧
    (portsAt 9 false).rst = false ∧ ¬ (portsAt 9 false).rxLevel ≠ (device .receiver (portsAt 9 false)).frontEnd.prevSample ∧
    (portsAt 9 true).rxLevel ≠ (device .receiver (portsAt 9 true)).frontEnd.prevSample ∧
    0x3A#8 ∈ (applying abPayload).framePayloadBytes ∧ 0x3A#8 ∉ (applying []).framePayloadBytes := by decide +kernel

/-- The rows of an open session before the idle timeout: its last instant, a calibrating session, both sides of the noise threshold. -/
theorem witness_ReceiverFollowsItsTransitionTable_open :
    (holding [] 1800 (portsAt 40999 true)).session.seeded = true ∧
    ¬ 40000 ≤ elapsed std (portsAt 40999 true).now (holding [] 1800 (portsAt 40999 true)).frontEnd.lastChangeTime ∧
    ({ Session.empty std with seeded := true } : Session).calibrating = true ∧
    (holding [] 1800 (portsAt 2499 true)).session.calibrating = false ∧
    elapsed std (portsAt 2499 true).now (holding [] 1800 (portsAt 2499 true)).session.lastEdgeTime < 1500 ∧
    1500 ≤ elapsed std (portsAt 2500 true).now (holding [] 1800 (portsAt 2500 true)).session.lastEdgeTime := by decide +kernel

/-- The rows at the idle timeout's first instant: both sides of the gate; the parse results are those of
`witness_IdleTimeoutTakesTheArmOfItsResult`. -/
theorem witness_ReceiverFollowsItsTransitionTable_idle :
    (holding helloFrame 1501 (portsAt 41000 false)).session.seeded = true ∧
    40000 ≤ elapsed std (portsAt 41000 false).now (holding helloFrame 1501 (portsAt 41000 false)).frontEnd.lastChangeTime ∧
    (4 ≤ (holding std.sig 1501 quietPorts).session.bitCount / 8 ∧
      1500 < (holding std.sig 1501 quietPorts).session.nominalPeriod) ∧
    ¬ (4 ≤ (holding [1#8, 2#8, 3#8] 1501 quietPorts).session.bitCount / 8 ∧
      1500 < (holding [1#8, 2#8, 3#8] 1501 quietPorts).session.nominalPeriod) ∧
    ¬ (4 ≤ (holding std.sig 1500 quietPorts).session.bitCount / 8 ∧
      1500 < (holding std.sig 1500 quietPorts).session.nominalPeriod) := by decide +kernel

theorem witness_ReceiverIgnoresTheSendersInputs :
    (holding [] 1800 (portsAt 2500 true)).role = .receiver ∧ (portsAt 2500 true).rst = false ∧
    ∃ t, step (holding [] 1800 (portsAt 2500 true)) = .next t :=
  ⟨rfl, rfl, exists_next (by decide +kernel)⟩

theorem witness_TerminalStatesAreLeftOnlyByReset :
    (sending 3#2 [] (portsAt 9 true)).done = true ∧ ({ device .receiver (portsAt 9 true) with st := 2#2 } : State).done = true ∧
    (portsAt 9 true).rst = false ∧ (∃ t, step (sending 3#2 [] (portsAt 9 true)) = .next t) ∧
    ∃ t, step { device .receiver (portsAt 9 true) with st := 2#2 } = .next t :=
  ⟨by decide, by decide, rfl, exists_next (by decide +kernel), exists_next (by decide +kernel)⟩

/-- A receiver two bits into a session, at a tick that closes no byte: it satisfies the invariant and steps. -/
theorem witness_EveryStepKeepsTheInvariant :
    Params.default.fits = true ∧ inverted.fits = true ∧
    Inv { device .receiver (portsAt 7000 true) with session := sessionAt 1800 5000 2 1#8 } ∧
    ∃ t, step { device .receiver (portsAt 7000 true) with session := sessionAt 1800 5000 2 1#8 } = .next t ∧
      t.session.calibrating = false := by
  refine ⟨by decide, by decide, ⟨by decide, (by unfold SessionOk; decide), (by unfold WidthsOk; decide),
    ⟨rfl, ?_, ?_, ?_, ?_, ?_, ?_⟩, (fun h => by cases h),
    fun _ => ⟨rfl, fun h => absurd rfl h, by decide⟩, (by unfold FlagsOk; decide), (by unfold LengthsOk; decide)⟩,
    ⟨_, rfl, by decide +kernel⟩⟩
  · intro name i _; cases name <;> rfl
  all_goals exact fun i h => absurd h (Nat.not_lt_zero i)

theorem witness_BuffersStayCanonical :
    (holding helloFrame 1800 (portsAt 41000 false)).mem.wf = true ∧
    (∃ t, exec .rAccept (holding helloFrame 1800 (portsAt 41000 false)) = .next t) ∧
    ∃ t, step (holding helloFrame 1800 (portsAt 41000 false)) = .next t :=
  ⟨by decide +kernel, exists_next (by decide +kernel), exists_next (by decide +kernel)⟩

theorem witness_RoleChangesOnlyAtReset :
    ∃ t, step (device .sender { quietPorts with rst := true, roleStrap := .receiver }) = .next t ∧
      t.role ≠ (device .sender { quietPorts with rst := true, roleStrap := .receiver }).role :=
  ⟨_, rfl, by decide +kernel⟩

/-- A sender's tick, a receiver's tick that writes the credentials, and an error kind raised. -/
theorem witness_RoleMachineProperties :
    (sending 1#2 helloFrame (portsAt 303000 false)).role = .sender ∧
    (∃ t, step (sending 1#2 helloFrame (portsAt 303000 false)) = .next t) ∧
    (∃ t, step (applying abPayload) = .next t ∧ t.cred ≠ (applying abPayload).cred) ∧
    (∃ t, step { applying abPayload with mem := ((applying abPayload).mem.copyIn .ssid [7#8]).copyIn .password [7#8] } = .next t ∧
      t.mem.readByte .ssid 0 ≠ 7#8 ∧ t.mem.readByte .password 0 ≠ 7#8) ∧
    Instr.rCrederr ∈ [Instr.rDiscard, .rRejectSig, .rRejectTrunc, .rRejectChk, .rCrederr] ∧
    ∃ t, exec .rCrederr (applying []) = .next t :=
  ⟨rfl, exists_next (by decide +kernel), ⟨_, rfl, by decide +kernel⟩, ⟨_, rfl, by decide +kernel, by decide +kernel⟩, by decide,
    exists_next rfl⟩

theorem witness_SentPayloadIsReceived :
    (std.premises = true ∧ std.fits = true) ∧
    ([] : List Byte).length ≤ 255 ∧ (List.replicate 255 0xA7#8).length ≤ 255 ∧ (State.resetAs std .receiver).role = .receiver ∧
    (State.resetAs std .receiver).st = 0#2 ∧ (State.resetAs std .receiver).session = Session.empty std ∧
    (State.resetAs std .receiver).frontEnd.prevSample = std.idleLevel ∧ (State.resetAs std .receiver).stimuli = [] := by decide +kernel

theorem witness_EverySelectWordCanBePlaced : State.reset.params = Params.default := rfl

theorem witness_CalibrationLearnsThePeriod :
    400 = elapsed std (portsAt 1400 false).now 1000 ∧ std.marginNum < std.marginDen := by decide

theorem witness_ParametersNeverChange :
    (∃ t, exec .sysReset (device .receiver quietPorts) = .next t) ∧ ∃ t, step (holding helloFrame 1800 (portsAt 41000 false)) = .next t :=
  ⟨exists_next rfl, exists_next (by decide +kernel)⟩

/-- A system of one device of each role, and a tick that resets both. -/
theorem witness_SystemTickIsOneTickOfEachDevice :
    linked.wf = true ∧ ({ quietPorts with rst := true } : Ports).rst = true := by decide +kernel

end Sys2Proof.Tests
end

section
/-! The rows of the operation map (R77): when one matches a select word, and that no two do (R84). -/

namespace Sys2Proof.Machine

theorem Role.bit_eq_true_iff (r : Role) : r.bit = true ↔ r = .receiver := by cases r <;> simp [Role.bit]

theorem Role.bit_ne_true_iff (r : Role) : ¬ r.bit = true ↔ r = .sender := by cases r <;> simp [Role.bit]

/-- A row matches a select word when each fixed bit of the row is the field's, field by field (R76, R77). -/
theorem TickRow.matches_word_iff (r : TickRow) (x : Select) :
    r.matches x.word = true ↔
      (x.rst && r.mask.getLsbD 15) = r.value.getLsbD 15 ∧ (x.role && r.mask.getLsbD 14) = r.value.getLsbD 14 ∧
      (x.st.getLsbD 1 && r.mask.getLsbD 13) = r.value.getLsbD 13 ∧ (x.st.getLsbD 0 && r.mask.getLsbD 12) = r.value.getLsbD 12 ∧
      (x.trigger && r.mask.getLsbD 11) = r.value.getLsbD 11 ∧ (x.txDone && r.mask.getLsbD 10) = r.value.getLsbD 10 ∧
      (x.windowElapsed && r.mask.getLsbD 9) = r.value.getLsbD 9 ∧ (x.edge && r.mask.getLsbD 8) = r.value.getLsbD 8 ∧
      (x.seeded && r.mask.getLsbD 7) = r.value.getLsbD 7 ∧ (x.calibrating && r.mask.getLsbD 6) = r.value.getLsbD 6 ∧
      (x.belowNoise && r.mask.getLsbD 5) = r.value.getLsbD 5 ∧ (x.idleExpired && r.mask.getLsbD 4) = r.value.getLsbD 4 ∧
      (x.gateOk && r.mask.getLsbD 3) = r.value.getLsbD 3 ∧ (x.po.getLsbD 1 && r.mask.getLsbD 2) = r.value.getLsbD 2 ∧
      (x.po.getLsbD 0 && r.mask.getLsbD 1) = r.value.getLsbD 1 ∧ (x.colonFound && r.mask.getLsbD 0) = r.value.getLsbD 0 := by
  rw [TickRow.matches_iff, ← x.word_rst, ← x.word_role, ← x.word_st1, ← x.word_st0, ← x.word_trigger, ← x.word_txDone,
    ← x.word_windowElapsed, ← x.word_edge, ← x.word_seeded, ← x.word_calibrating, ← x.word_belowNoise, ← x.word_idleExpired,
    ← x.word_gateOk, ← x.word_po1, ← x.word_po0, ← x.word_colonFound]
  simp only [Nat.forall_lt_succ_right, Nat.not_lt_zero, false_implies, implies_true, true_and, and_assoc]
  constructor
  · rintro ⟨h0, h1, h2, h3, h4, h5, h6, h7, h8, h9, h10, h11, h12, h13, h14, h15⟩
    exact ⟨h15, h14, h13, h12, h11, h10, h9, h8, h7, h6, h5, h4, h3, h2, h1, h0⟩
  · rintro ⟨h15, h14, h13, h12, h11, h10, h9, h8, h7, h6, h5, h4, h3, h2, h1, h0⟩
    exact ⟨h0, h1, h2, h3, h4, h5, h6, h7, h8, h9, h10, h11, h12, h13, h14, h15⟩

/-- Two rows that disagree on a bit fixed in both share no select word. -/
theorem TickRow.not_matches_of_conflict {r q : TickRow} {sel : BitVec 16} (hr : r.matches sel = true)
    (hc : r.value &&& q.mask ≠ q.value &&& r.mask) : q.matches sel = false := by
  rw [Bool.eq_false_iff]
  intro hq
  apply hc
  rw [← beq_iff_eq.mp hr, ← beq_iff_eq.mp hq, BitVec.and_assoc, BitVec.and_assoc, BitVec.and_comm r.mask]

/-- Distinct rows of the operation map disagree on a bit fixed in both (R84). -/
theorem tickTable_rows_conflict : ∀ r ∈ tickTable, ∀ q ∈ tickTable, r ≠ q → r.value &&& q.mask ≠ q.value &&& r.mask := by
  decide

/-- The decoder answers the operation of the row that matches. -/
theorem decodeTick_of_matches {r : TickRow} {sel : BitVec 16} (hr : r ∈ tickTable) (hm : r.matches sel = true) :
    decodeTick sel = .ok r.op := by
  unfold decodeTick
  cases hf : tickTable.find? (fun q => q.matches sel) with
  | none => exact absurd hm (List.find?_eq_none.mp hf r hr)
  | some q =>
    by_cases hq : r = q
    · rw [hq]
    · have hmq := List.find?_some hf
      rw [TickRow.not_matches_of_conflict hm (tickTable_rows_conflict r hr q (List.mem_of_find?_eq_some hf) hq)] at hmq
      cases hmq

end Sys2Proof.Machine
end

section
/-! The decoder is the tree of R84, branch by branch: each leaf names its row of the operation map. -/

namespace Sys2Proof.Machine

theorem twoBit_cases : ∀ c : BitVec 2, c = 0#2 ∨ c = 1#2 ∨ c = 2#2 ∨ c = 3#2 := by decide

/-- A Sender's tick without reset performs the operation of R84's sender branch. -/
theorem decodeTick_sender (x : Select) (hrst : x.rst = false) (hrole : x.role = false) :
    decodeTick x.word = .ok x.senderChoice := by
  unfold Select.senderChoice
  rcases twoBit_cases x.st with hst | hst | hst | hst <;> rw [hst]
  · cases ht : x.trigger
    · exact decodeTick_of_matches (r := ⟨0xF800#16, 0x0000#16, .sWait⟩) (by decide)
        (by simp [TickRow.matches_word_iff, *])
    · exact decodeTick_of_matches (r := ⟨0xF800#16, 0x0800#16, .sTrigger⟩) (by decide)
        (by simp [TickRow.matches_word_iff, *])
  · cases hd : x.txDone
    · exact decodeTick_of_matches (r := ⟨0xF400#16, 0x1000#16, .sTxtick⟩) (by decide)
        (by simp [TickRow.matches_word_iff, *])
    · exact decodeTick_of_matches (r := ⟨0xF400#16, 0x1400#16, .sTxdone⟩) (by decide)
        (by simp [TickRow.matches_word_iff, *])
  · cases hw : x.windowElapsed
    · exact decodeTick_of_matches (r := ⟨0xF200#16, 0x2000#16, .sCool⟩) (by decide)
        (by simp [TickRow.matches_word_iff, *])
    · exact decodeTick_of_matches (r := ⟨0xF200#16, 0x2200#16, .sTimeout⟩) (by decide)
        (by simp [TickRow.matches_word_iff, *])
  · exact decodeTick_of_matches (r := ⟨0xF000#16, 0x3000#16, .sHalt⟩) (by decide)
      (by simp [TickRow.matches_word_iff, *])

/-- At the end of a session past the gate, the parse result selects the arm (R84, R114). -/
theorem decodeTick_idleArm (x : Select) (hrst : x.rst = false) (hrole : x.role = true) (hst : x.st = rListening)
    (hseed : x.seeded = true) (hidle : x.idleExpired = true) (hgate : x.gateOk = true) :
    decodeTick x.word = .ok (idleArm x.po) := by
  unfold rListening at hst
  rcases twoBit_cases x.po with hpo | hpo | hpo | hpo <;> rw [hpo]
  · exact decodeTick_of_matches (r := ⟨0xF09E#16, 0x4098#16, .rAccept⟩) (by decide)
      (by simp [TickRow.matches_word_iff, *])
  · exact decodeTick_of_matches (r := ⟨0xF09E#16, 0x409A#16, .rRejectSig⟩) (by decide)
      (by simp [TickRow.matches_word_iff, *])
  · exact decodeTick_of_matches (r := ⟨0xF09E#16, 0x409C#16, .rRejectTrunc⟩) (by decide)
      (by simp [TickRow.matches_word_iff, *])
  · exact decodeTick_of_matches (r := ⟨0xF09E#16, 0x409E#16, .rRejectChk⟩) (by decide)
      (by simp [TickRow.matches_word_iff, *])

/-- A listening Receiver's tick without reset performs the operation of R84's listening branch. -/
theorem decodeTick_listening (x : Select) (hrst : x.rst = false) (hrole : x.role = true) (hst : x.st = rListening) :
    decodeTick x.word = .ok x.listeningChoice := by
  have harm := decodeTick_idleArm x hrst hrole hst
  unfold rListening at hst
  unfold Select.listeningChoice
  cases hseed : x.seeded
  · cases hedge : x.edge
    · exact decodeTick_of_matches (r := ⟨0xF180#16, 0x4000#16, .rQuiet⟩) (by decide)
        (by simp [TickRow.matches_word_iff, *])
    · exact decodeTick_of_matches (r := ⟨0xF180#16, 0x4100#16, .decSeed⟩) (by decide)
        (by simp [TickRow.matches_word_iff, *])
  · cases hidle : x.idleExpired
    · cases hedge : x.edge
      · exact decodeTick_of_matches (r := ⟨0xF190#16, 0x4080#16, .rInframe⟩) (by decide)
          (by simp [TickRow.matches_word_iff, *])
      · cases hcal : x.calibrating
        · cases hnoise : x.belowNoise
          · exact decodeTick_of_matches (r := ⟨0xF1F0#16, 0x4180#16, .decBit⟩) (by decide)
              (by simp [TickRow.matches_word_iff, *])
          · exact decodeTick_of_matches (r := ⟨0xF1F0#16, 0x41A0#16, .decReject⟩) (by decide)
              (by simp [TickRow.matches_word_iff, *])
        · exact decodeTick_of_matches (r := ⟨0xF1D0#16, 0x41C0#16, .decCal⟩) (by decide)
            (by simp [TickRow.matches_word_iff, *])
    · cases hgate : x.gateOk
      · exact decodeTick_of_matches (r := ⟨0xF098#16, 0x4090#16, .rDiscard⟩) (by decide)
          (by simp [TickRow.matches_word_iff, *])
      · exact harm hseed hidle hgate

/-- R84: the operation of a tick is the one that the tree of R84 reads off the select fields. -/
theorem decodeTick_word (x : Select) : decodeTick x.word = .ok x.choice := by
  unfold Select.choice
  cases hrst : x.rst
  · cases hrole : x.role
    · exact decodeTick_sender x hrst hrole
    · rcases twoBit_cases x.st with hst | hst | hst | hst
      · rw [decodeTick_listening x hrst hrole hst, hst]; rfl
      · rw [hst]
        cases hcolon : x.colonFound
        · exact decodeTick_of_matches (r := ⟨0xF001#16, 0x5000#16, .rCrederr⟩) (by decide)
            (by simp [TickRow.matches_word_iff, *])
        · exact decodeTick_of_matches (r := ⟨0xF001#16, 0x5001#16, .rApply⟩) (by decide)
            (by simp [TickRow.matches_word_iff, *])
      · rw [hst]
        exact decodeTick_of_matches (r := ⟨0xF000#16, 0x6000#16, .rDone⟩) (by decide)
          (by simp [TickRow.matches_word_iff, *])
      · rw [hst]
        exact decodeTick_of_matches (r := ⟨0xF000#16, 0x7000#16, .rRsvd⟩) (by decide)
          (by simp [TickRow.matches_word_iff, *])
  · exact decodeTick_of_matches (r := ⟨0x8000#16, 0x8000#16, .sysReset⟩) (by decide)
      (by simp [TickRow.matches_word_iff, *])

end Sys2Proof.Machine
end

section
/-! Everything a tick's operation can do, with the condition it is selected under. -/

namespace Sys2Proof.Machine

/-- The TICK operations that write no register (R142, R146, R148, R109, R150, R151, R159, R160). -/
def quietOperations : List Instr := [.sWait, .sCool, .sHalt, .decReject, .rQuiet, .rInframe, .rDone, .rRsvd]

/-- The operations that end a session without a frame, with the error kind each raises (R152, R154, R155, R156). -/
def sessionEndings : List (Instr × ErrorKind) :=
  [(.rDiscard, .noiseOnlySession), (.rRejectSig, .signatureMismatch), (.rRejectTrunc, .truncated),
    (.rRejectChk, .checksumMismatch)]

/-- What a tick in state `s` can do: the operation, the part of its select pattern that the state invariants turn on, and the
state the operation leaves (R141, R149). -/
inductive TickRun (s : State) : Instr → State → Prop where
  | reset (hrst : s.ports.rst = true) : TickRun s .sysReset s.afterReset
  | quiet {i : Instr} (hi : i ∈ quietOperations) : TickRun s i s
  | trigger (hrole : s.role = .sender) (hst : s.st = sIdle) :
      TickRun s .sTrigger
        { s with
          mem := s.mem.copyIn .txFrame s.frameToSend
          tx := { frameLen := BitVec.ofNat 9 (s.ports.txLen.toNat + 6), startTime := s.now
                  level := levelAt s.params s.frameToSend 0 }
          st := sTransmitting }
  | drive (hrole : s.role = .sender) (hst : s.st = sTransmitting) : TickRun s .sTxtick s.driveLine
  | transmitted (hrole : s.role = .sender) (hst : s.st = sTransmitting) :
      TickRun s .sTxdone { s with tx := { s.tx with level := s.params.idleLevel }, st := sCooldown }
  | timeout (hrole : s.role = .sender) (hst : s.st = sCooldown) :
      TickRun s .sTimeout { s.report .senderTimeout with st := sListening }
  | seed (hrole : s.role = .receiver) (hst : s.st = rListening) (hseed : s.session.seeded = false) :
      TickRun s .decSeed s.seedNow
  | calibrate (hrole : s.role = .receiver) (hst : s.st = rListening) (hseed : s.session.seeded = true)
      (hcal : s.session.calibrating = true) :
      TickRun s .decCal { s with session := s.session.calibrateWith s.params s.delta s.now s.ports.rxLevel }
  | bit (hrole : s.role = .receiver) (hst : s.st = rListening) (hseed : s.session.seeded = true)
      (hcal : s.session.calibrating = false) :
      TickRun s .decBit
        { s with
          session := s.session.bitWith s.params s.delta s.now s.ports.rxLevel
          mem := { s.mem with
            rawBytes := s.session.accumulateCells s.params s.mem.rawBytes (s.session.bitOf s.delta) } }
  | endSession {i : Instr} {k : ErrorKind} (hi : (i, k) ∈ sessionEndings) (hrole : s.role = .receiver)
      (hst : s.st = rListening) : TickRun s i (s.endSession k)
  | accept {f : Frame} (hrole : s.role = .receiver) (hst : s.st = rListening) (hf : s.parsed = .ok f) :
      TickRun s .rAccept (s.acceptFrame f)
  | apply {ssid password : List Byte} (hrole : s.role = .receiver) (hst : s.st = rApplying)
      (hsplit : s.splitPayload = .ok ssid password) : TickRun s .rApply (s.applyCredentials ssid password)
  | credentialError (hrole : s.role = .receiver) (hst : s.st = rApplying) :
      TickRun s .rCrederr { s.raise .credentialFormatError with frame := { s.frame with valid := false } }

/-- `R.ACCEPT` answers a next state only with a frame to take (R153). -/
theorem execRAccept_next {s u : State} (h : execRAccept s = .next u) : ∃ f, s.parsed = .ok f ∧ u = s.acceptFrame f := by
  unfold execRAccept at h
  split at h
  next f hf => cases h; exact ⟨f, hf, rfl⟩
  next => cases h

/-- `R.APPLY` answers a next state only with a payload that splits (R157). -/
theorem execRApply_next {s u : State} (h : execRApply s = .next u) :
    ∃ a b, s.splitPayload = .ok a b ∧ u = s.applyCredentials a b := by
  unfold execRApply at h
  split at h
  next a b hab => cases h; exact ⟨a, b, hab, rfl⟩
  next => cases h

theorem tickRun_quiet {s u : State} {i : Instr} (hi : i ∈ quietOperations) (he : exec i s = .next u) : TickRun s i u := by
  have hu : exec i s = .next s := by
    simp only [quietOperations, List.mem_cons, List.not_mem_nil, or_false] at hi
    rcases hi with rfl | rfl | rfl | rfl | rfl | rfl | rfl | rfl <;> rfl
  rw [hu] at he
  cases he
  exact .quiet hi

/-- A Sender's tick (R141). -/
theorem tickRun_sender {s u : State} (hrole : s.role = .sender) (he : exec s.select.senderChoice s = .next u) :
    TickRun s s.select.senderChoice u := by
  revert he
  unfold Select.senderChoice
  split_ifs with hidle htrigger htransmit hdone hcool hwindow <;> intro he
  · cases he; exact .trigger hrole hidle
  · exact tickRun_quiet (by decide) he
  · cases he; exact .transmitted hrole htransmit
  · cases he; exact .drive hrole htransmit
  · cases he; exact .timeout hrole hcool
  · exact tickRun_quiet (by decide) he
  · exact tickRun_quiet (by decide) he

theorem tickRun_endSession {s u : State} {i : Instr} {k : ErrorKind} (hi : (i, k) ∈ sessionEndings)
    (hrole : s.role = .receiver) (hst : s.st = rListening) (he : exec i s = .next u) : TickRun s i u := by
  have hu : exec i s = .next (s.endSession k) := by
    simp only [sessionEndings, List.mem_cons, List.not_mem_nil, or_false, Prod.mk.injEq] at hi
    rcases hi with ⟨rfl, rfl⟩ | ⟨rfl, rfl⟩ | ⟨rfl, rfl⟩ | ⟨rfl, rfl⟩ <;> rfl
  rw [hu] at he
  cases he
  exact .endSession hi hrole hst

/-- A tick in which the idle timeout ends a session past the gate (R114, R149). -/
theorem tickRun_idleArm {s u : State} (hrole : s.role = .receiver) (hst : s.st = rListening) (po : BitVec 2)
    (he : exec (idleArm po) s = .next u) : TickRun s (idleArm po) u := by
  revert he
  unfold idleArm
  split_ifs <;> intro he
  · obtain ⟨f, hf, rfl⟩ := execRAccept_next he
    exact .accept hrole hst hf
  · exact tickRun_endSession (k := .signatureMismatch) (by decide) hrole hst he
  · exact tickRun_endSession (k := .truncated) (by decide) hrole hst he
  · exact tickRun_endSession (k := .checksumMismatch) (by decide) hrole hst he

/-- A listening Receiver's tick (R149). -/
theorem tickRun_listening {s u : State} (hrole : s.role = .receiver) (hst : s.st = rListening)
    (he : exec s.select.listeningChoice s = .next u) : TickRun s s.select.listeningChoice u := by
  revert he
  unfold Select.listeningChoice
  split_ifs with hseed hidle hgate hedge hcal hnoise hedge' <;> intro he
  · exact tickRun_idleArm hrole hst _ he
  · exact tickRun_endSession (k := .noiseOnlySession) (by decide) hrole hst he
  · cases he; exact .calibrate hrole hst hseed hcal
  · exact tickRun_quiet (by decide) he
  · cases he; exact .bit hrole hst hseed (Bool.eq_false_iff.mpr hcal)
  · exact tickRun_quiet (by decide) he
  · cases he; exact .seed hrole hst (Bool.eq_false_iff.mpr hseed)
  · exact tickRun_quiet (by decide) he

/-- A tick performs the operation of its select word, in a state that the word was read from (R84, R162). -/
theorem tickRun_of_decode {s u : State} {i : Instr} (hd : decodeTick s.sel = .ok i) (he : exec i s = .next u) :
    TickRun s i u := by
  have hi : i = s.select.choice := by
    unfold State.sel at hd
    rw [decodeTick_word] at hd
    cases hd; rfl
  subst hi
  revert he
  unfold Select.choice
  split_ifs with hrst hrole hlisten happly hcolon hdone <;> intro he
  · cases he; exact .reset hrst
  · exact tickRun_listening ((Role.bit_eq_true_iff _).mp hrole) hlisten he
  · obtain ⟨a, b, hab, rfl⟩ := execRApply_next he
    exact .apply ((Role.bit_eq_true_iff _).mp hrole) happly hab
  · cases he; exact .credentialError ((Role.bit_eq_true_iff _).mp hrole) happly
  · exact tickRun_quiet (by decide) he
  · exact tickRun_quiet (by decide) he
  · exact tickRun_sender ((Role.bit_ne_true_iff _).mp hrole) he

end Sys2Proof.Machine
end

section
/-! The inversion of a step, and what it says of the parameters, the role, the calibrated period, the outcome and reset. -/

namespace Sys2Proof.Machine

/-- A wire symbol only returns its actions (R90 to R95). -/
theorem exec_wire_returns {P : Params} {first : Bool} {uu : Nat} {i : Instr} {s u : State}
    (hd : decodeWire P first uu = .ok i) (he : exec i s = .next u) : ∃ r, u = s.returning r := by
  unfold decodeWire at hd
  split_ifs at hd <;> cases hd <;> cases he <;> exact ⟨_, rfl⟩

theorem decodeSig_ok {want b : Byte} {op i : Instr} (hd : decodeSig want b op = .ok i) : i = op := by
  unfold decodeSig at hd
  split_ifs at hd
  cases hd; rfl

/-- A frame byte only returns itself and its actions (R73). -/
theorem exec_byte_returns {P : Params} {offset : Nat} {len b : Byte} {i : Instr} {s u : State}
    (hd : decodeByte P offset len b = .ok i) (he : exec i s = .next u) : ∃ r, u = s.returning r := by
  unfold decodeByte at hd
  split_ifs at hd
  iterate 4 (· cases decodeSig_ok hd; cases he; exact ⟨_, rfl⟩)
  all_goals cases hd; cases he; exact ⟨_, rfl⟩

/-- Everything a step can do: run the operation of a tick's select word and let the front end write, or, where no tick is placed,
only return a value (a wire symbol, a frame byte, or a code that stands for no operation). -/
theorem step_next_inversion {s t : State} (h : step s = .next t) :
    (∃ sel i u, s.fetch.2 = .tick sel ∧ decode s.params s.fetch.2 = .ok i ∧ TickRun s.fetch.1 i u ∧
      t = closeTick (.tick sel) s.fetch.1 u) ∨
    ((∀ sel, s.fetch.2 ≠ .tick sel) ∧ ∃ r, t = s.fetch.1.returning r) := by
  rcases step_next_cases s t h with ⟨i, u, hd, he, ht⟩ | ⟨e, hd, ht⟩
  · cases hc : s.fetch.2 with
    | tick sel =>
      rw [hc] at hd ht
      have hrun : decodeTick s.fetch.1.sel = .ok i := State.fetch_tick_code s sel hc ▸ hd
      exact .inl ⟨sel, i, u, rfl, hd, tickRun_of_decode hrun he, ht⟩
    | wire first uu =>
      rw [hc] at hd ht
      exact .inr ⟨nofun, ht ▸ exec_wire_returns hd he⟩
    | byte offset len b =>
      rw [hc] at hd ht
      exact .inr ⟨nofun, ht ▸ exec_byte_returns hd he⟩
  · refine .inr ⟨fun sel hc => ?_, .rejected e, ht⟩
    have hsel : decodeTick sel = .ok s.fetch.1.select.choice := by
      rw [State.fetch_tick_code s sel hc]
      exact decodeTick_word _
    rw [hc] at hd
    cases hsel.symm.trans hd

/-! ### The parameters and the role -/

theorem State.endSession_params (s : State) (k : ErrorKind) : (s.endSession k).params = s.params := by
  rw [State.endSession_eq]

theorem State.endOfFrame_params (s : State) : s.endOfFrame.params = s.params := by
  rcases s.endOfFrame_cases with ⟨_, h⟩ | ⟨f, _, _, h⟩ | ⟨k, _, _, h⟩ <;> rw [h]
  · exact s.endSession_params _
  · rfl
  · exact s.endSession_params _

/-- No operation writes the parameters (R43, log 5). -/
theorem exec_params {i : Instr} {s t : State} (h : exec i s = .next t) : t.params = s.params := by
  cases i
  case rDiscard | rRejectSig | rRejectTrunc | rRejectChk => cases h; exact s.endSession_params _
  case decIdle => cases h; exact s.endOfFrame_params
  case rAccept => obtain ⟨f, _, rfl⟩ := execRAccept_next h; rfl
  case rApply => obtain ⟨a, b, _, rfl⟩ := execRApply_next h; rfl
  all_goals cases h; rfl

theorem TickRun.params {s u : State} {i : Instr} (h : TickRun s i u) : u.params = s.params := by
  cases h with
  | endSession => exact s.endSession_params _
  | _ => rfl

/-- A tick's operation writes the role only at reset, and then from the strap (R16, R140). -/
theorem TickRun.role {s u : State} {i : Instr} (h : TickRun s i u) :
    u.role = s.role ∨ (s.ports.rst = true ∧ u.role = s.ports.roleStrap) := by
  cases h with
  | reset hrst => exact .inr ⟨hrst, rfl⟩
  | endSession => rw [State.endSession_eq]; exact .inl rfl
  | _ => exact .inl rfl

/-- Settles O59: each operation's answer has the parameters it started with, and fetching and closing a tick leave them alone. -/
theorem parametersNeverChange : Obligations.ParametersNeverChange := by
  refine ⟨fun i s t h => exec_params h, fun s t h => ?_⟩
  obtain ⟨hfetch, -⟩ := s.fetch_registers
  rcases step_next_cases s t h with ⟨i, u, _, he, rfl⟩ | ⟨e, _, rfl⟩
  · obtain ⟨hclose, -⟩ := closeTick_registers s.fetch.2 s.fetch.1 u
    rw [hclose, exec_params he, hfetch]
  · exact hfetch

/-- Settles O56, from what a step can do: only the reset tick writes the role. -/
theorem roleChangesOnlyAtReset : Obligations.RoleChangesOnlyAtReset := by
  intro s t h hne
  obtain ⟨-, hfetch, -⟩ := s.fetch_registers
  rcases step_next_inversion h with ⟨sel, i, u, _, _, hrun, rfl⟩ | ⟨_, r, rfl⟩
  · obtain ⟨-, hclose, -⟩ := closeTick_registers (.tick sel) s.fetch.1 u
    rw [hclose] at hne ⊢
    rcases hrun.role with hsame | hreset
    · exact absurd (hsame.trans hfetch) hne
    · exact hreset
  · exact absurd hfetch hne

/-! ### The calibrated period -/

/-- A tick's operation that leaves a calibrated session calibrated does not raise the period: only `DEC.BIT` writes it, with a minimum
(R112). -/
theorem TickRun.nominalPeriod_le {s u : State} {i : Instr} (h : TickRun s i u) (hs : s.session.calibrating = false)
    (hu : u.session.calibrating = false) : u.session.nominalPeriod ≤ s.session.nominalPeriod := by
  cases h with
  | reset | accept | credentialError => cases hu
  | endSession => rw [State.endSession_eq] at hu; dsimp only at hu; split_ifs at hu <;> cases hu
  | calibrate _ _ _ hcal => rw [hs] at hcal; cases hcal
  | bit =>
    rw [Session.bitWith_nominalPeriod, minUpdate_eq_min]
    exact Nat.min_le_left _ _
  | _ => exact Nat.le_refl _

/-- Settles O32, from what a step can do to the session. -/
theorem calibratedPeriodNeverGrows : Obligations.CalibratedPeriodNeverGrows := by
  intro s t h hs ht
  obtain ⟨-, -, -, hfetch, -⟩ := s.fetch_registers
  rcases step_next_inversion h with ⟨sel, i, u, _, _, hrun, rfl⟩ | ⟨_, r, rfl⟩
  · obtain ⟨-, -, -, hclose, -⟩ := closeTick_registers (.tick sel) s.fetch.1 u
    rw [hclose] at ht ⊢
    rw [← hfetch] at hs ⊢
    exact hrun.nominalPeriod_le hs ht
  · rw [State.returning_session, hfetch]

/-! ### The outcome -/

/-- The operations that raise an error kind or report (R33, R34). -/
def reportingOperations : List Instr := [.rDiscard, .rAccept, .rRejectSig, .rRejectTrunc, .rRejectChk, .rCrederr, .sTimeout]

theorem quiet_not_reporting : ∀ i ∈ quietOperations, i ∉ reportingOperations ∧ i ≠ .sysReset := by decide

theorem sessionEndings_reporting : ∀ e ∈ sessionEndings, e.1 ∈ reportingOperations ∧ e.1 ≠ .sysReset := by decide

/-- A tick's operation that reports sets the strobe, any other leaves the outcome register alone, but for reset (R34, R161). -/
theorem TickRun.outcome {s u : State} {i : Instr} (h : TickRun s i u) (hs : s.outcomeStrobe = false) :
    (i ∈ reportingOperations ∧ i ≠ .sysReset ∧ u.outcomeStrobe = true) ∨
    (i ∉ reportingOperations ∧ i ≠ .sysReset ∧ u.outcomeStrobe = false ∧ u.outcome = s.outcome) ∨
    (i = .sysReset ∧ u.outcomeStrobe = false ∧ u.outcome = .none) := by
  cases h with
  | reset => exact .inr (.inr ⟨rfl, rfl, rfl⟩)
  | quiet hi =>
    obtain ⟨hnot, hne⟩ := quiet_not_reporting i hi
    exact .inr (.inl ⟨hnot, hne, hs, rfl⟩)
  | @endSession _ k hi =>
    obtain ⟨hmem, hne⟩ := sessionEndings_reporting (i, k) hi
    exact .inl ⟨hmem, hne, by rw [State.endSession_eq]⟩
  | timeout | accept | credentialError => exact .inl ⟨by decide, by decide, rfl⟩
  | _ => exact .inr (.inl ⟨by decide, by decide, hs, rfl⟩)

/-- At the start of a tick the strobe of the tick before is over (R34). -/
theorem State.fetch_tick_outcomeStrobe {s : State} {sel : BitVec 16} (h : s.fetch.2 = .tick sel) :
    s.fetch.1.outcomeStrobe = false := by
  cases hs : s.stimuli with
  | nil => rw [State.fetch_free s hs]
  | cons x rest =>
    cases x with
    | tick p => rw [State.fetch_tick s p rest hs]
    | wire first uu => rw [State.fetch_wire s first uu rest hs] at h; cases h
    | byte offset len b => rw [State.fetch_byte s offset len b rest hs] at h; cases h

/-- `done` is the formula of R34. -/
theorem State.done_iff (s : State) :
    s.done = true ↔ (s.role = .sender ∧ s.st = 3#2) ∨ (s.role = .receiver ∧ s.st.getLsbD 1 = true) := by
  unfold State.done
  cases s.role <;> simp [sListening]

/-- Settles O10: what a tick's operation does to the strobe and the outcome, seen after the tick is closed. -/
theorem strobeMarksTheOutcomeWrites : Obligations.StrobeMarksTheOutcomeWrites := by
  refine ⟨fun s t sel i hsel hd h => ?_, State.done_iff⟩
  obtain ⟨-, -, -, -, -, -, -, -, hfetch, -⟩ := s.fetch_registers
  rcases step_next_inversion h with ⟨sel', j, u, _, hj, hrun, rfl⟩ | ⟨hno, _⟩
  · obtain rfl : i = j := Except.ok.inj (hd.symm.trans hj)
    obtain ⟨-, -, -, -, -, -, -, houtcome, -, hstrobe, -⟩ := closeTick_registers (.tick sel') s.fetch.1 u
    rw [houtcome, hstrobe, ← hfetch]
    change (_ ↔ i ∈ reportingOperations) ∧ _
    rcases hrun.outcome (State.fetch_tick_outcomeStrobe hsel) with
      ⟨hmem, hne, hset⟩ | ⟨hmem, hne, hclear, hsame⟩ | ⟨rfl, hclear, hnone⟩
    · exact ⟨iff_of_true hset hmem, fun hclear => absurd (hset.symm.trans hclear) nofun, fun h => absurd h hne⟩
    · exact ⟨iff_of_false (by simp [hclear]) hmem, fun _ _ => hsame, fun h => absurd h hne⟩
    · exact ⟨iff_of_false (by simp [hclear]) (by decide), fun _ hne => absurd rfl hne, fun _ => hnone⟩
  · exact absurd hsel (hno sel)

/-! ### The reset table -/

/-- Settles O11: `State.afterReset` is the table of R41, written out. -/
theorem resetWritesTheTable : Obligations.ResetWritesTheTable := by
  intro s
  have hcells : ∀ name, s.afterReset.mem.cells name = [] := by intro name; cases name <;> rfl
  have hinputs : SameInputs s s.afterReset := ⟨rfl, rfl, rfl, rfl⟩
  exact ⟨s.afterReset, rfl, rfl, rfl, rfl, rfl, rfl, rfl, rfl, rfl, rfl, rfl, rfl, rfl, rfl, rfl, rfl, rfl, rfl, rfl, rfl, rfl, rfl,
    rfl, rfl, hcells, rfl, hinputs⟩

end Sys2Proof.Machine
end

section
/-! What the invariant says of the buffers and of the decoder's session, kept by every operation on them. -/

namespace Sys2Proof.Machine

/-! ### Listed cells and capacities -/

theorem ListedBelow.mono {cs : List Host.Cell} {m n : Nat} (h : ListedBelow cs n) (hmn : m ≤ n) : ListedBelow cs m :=
  fun i hi => h i (Nat.lt_of_lt_of_le hi hmn)

theorem ListedBelow.zero (cs : List Host.Cell) : ListedBelow cs 0 := fun i hi => absurd hi (Nat.not_lt_zero i)

/-- Writing the next cell extends what is listed by one. -/
theorem ListedBelow.write {cs : List Host.Cell} {n : Nat} (h : ListedBelow cs n) (v : Byte) :
    ListedBelow (Cells.write cs n v) (n + 1) := by
  intro i hi
  by_cases hin : i = n
  · rw [hin, Cells.lookup_write_same]; rfl
  · rw [Cells.lookup_write_other _ _ _ _ hin]
    exact h i (by omega)

/-- A block copy lists every cell it writes. -/
theorem ListedBelow.writeBlock (cs : List Host.Cell) (vs : List Byte) : ListedBelow (Cells.writeBlock cs 0 vs) vs.length := by
  intro i hi
  rw [Cells.lookup_writeBlock, if_pos ⟨Nat.zero_le i, by omega⟩, Nat.sub_zero, List.getElem?_eq_getElem hi]
  rfl

theorem WithinCapacity.write {cs : List Host.Cell} {cap n : Nat} (h : WithinCapacity cs cap) (hn : n < cap) (v : Byte) :
    WithinCapacity (Cells.write cs n v) cap := by
  intro i hi
  rw [Cells.lookup_write_other _ _ _ _ (by omega)]
  exact h i hi

theorem WithinCapacity.writeBlock {cs : List Host.Cell} {cap : Nat} (h : WithinCapacity cs cap) {vs : List Byte}
    (hvs : vs.length ≤ cap) : WithinCapacity (Cells.writeBlock cs 0 vs) cap := by
  intro i hi
  rw [Cells.lookup_writeBlock, if_neg (by omega)]
  exact h i hi

/-- The memory part of the invariant that does not speak of valid counts: canonical buffers within their capacities (R50). -/
structure MemoryOk (P : Params) (m : Memory) : Prop where
  canonical : m.wf = true
  capacity : ∀ name, WithinCapacity (m.cells name) (name.capacity P)

theorem MemoryOk.setCells {P : Params} {m : Memory} (h : MemoryOk P m) (name : BufferName) {cs : List Host.Cell}
    (hwf : Cells.wf cs = true) (hcap : WithinCapacity cs (name.capacity P)) : MemoryOk P (m.setCells name cs) := by
  refine ⟨Memory.wf_setCells m name cs h.canonical hwf, fun b => ?_⟩
  by_cases hb : b = name
  · subst hb; rwa [Memory.cells_setCells_same]
  · rw [Memory.cells_setCells_other m name b cs hb]; exact h.capacity b

/-- A block copy that fits its buffer keeps the buffers canonical and within their capacities. -/
theorem MemoryOk.copyIn {P : Params} {m : Memory} (h : MemoryOk P m) (name : BufferName) {vs : List Byte}
    (hvs : vs.length ≤ name.capacity P) : MemoryOk P (m.copyIn name vs) :=
  h.setCells name (Cells.wf_writeBlock vs _ 0 ((Memory.wf_iff m).mp h.canonical name)) ((h.capacity name).writeBlock hvs)

/-! ### The session and its cells -/

/-- What the invariant says of a session value: R42 items 1 to 3, the widths of its registers, and that the closed bytes are listed
in a canonical buffer within its capacity. -/
structure SessionValueOk (P : Params) (v : SessionValue) : Prop where
  regs : SessionOk P v.regs
  period : v.regs.nominalPeriod < 2 ^ P.tsW
  edgeTime : v.regs.lastEdgeTime < 2 ^ P.tsW
  canonical : Cells.wf v.cells = true
  capacity : WithinCapacity v.cells P.rawCap
  listed : ListedBelow v.cells v.regs.byteCount

/-- The bit count fits `BC_W` bits (R8, R21). -/
theorem SessionValueOk.bitCount_lt {P : Params} {v : SessionValue} (h : SessionValueOk P v) : v.regs.bitCount < 2 ^ P.bcW := by
  obtain ⟨hcount, _⟩ := h.regs
  exact P.lt_bcW _ hcount

theorem Session.empty_byteCount (P : Params) : (Session.empty P).byteCount = 0 := Nat.zero_div 8

theorem SessionOk.empty (P : Params) : SessionOk P (Session.empty P) :=
  ⟨Nat.zero_le _, Nat.two_pow_pos _, fun _ => ⟨rfl, rfl, rfl⟩, fun h => absurd rfl h⟩

/-- `DEC.RESET` keeps what holds of a session value: it drops the closed bytes and leaves the cells (R115). -/
theorem SessionValueOk.empty {P : Params} {v : SessionValue} (h : SessionValueOk P v) :
    SessionValueOk P { v with regs := Session.empty P } where
  regs := SessionOk.empty P
  period := Nat.two_pow_pos _
  edgeTime := Nat.two_pow_pos _
  canonical := h.canonical
  capacity := h.capacity
  listed := (Session.empty_byteCount P).symm ▸ ListedBelow.zero v.cells

/-- `DEC.SEED` keeps what holds of a session value (R107). -/
theorem SessionValueOk.seedWith {P : Params} {v : SessionValue} (h : SessionValueOk P v) (t : Nat) (lvl : Level) :
    SessionValueOk P { v with regs := v.regs.seedWith (P.stamp t) lvl } where
  regs := by
    obtain ⟨hcount, hshift, _, hbits⟩ := h.regs
    exact ⟨hcount, hshift, nofun, hbits⟩
  period := h.period
  edgeTime := P.stamp_lt t
  canonical := h.canonical
  capacity := h.capacity
  listed := h.listed

/-- `DEC.CAL` keeps what holds of a session value that is seeded (R108). -/
theorem SessionValueOk.calibrateWith {P : Params} {v : SessionValue} (h : SessionValueOk P v) (hseed : v.regs.seeded = true)
    (d t : Nat) (lvl : Level) : SessionValueOk P { v with regs := v.regs.calibrateWith P d (P.stamp t) lvl } where
  regs := by
    obtain ⟨hcount, hshift, _, _⟩ := h.regs
    exact ⟨hcount, hshift, fun hs => absurd (hseed.symm.trans hs) nofun, fun _ => rfl⟩
  period := scale_lt P d
  edgeTime := P.stamp_lt t
  canonical := h.canonical
  capacity := h.capacity
  listed := h.listed

/-- The bits of an unfinished byte stay below its next position (R22, R113). -/
theorem Session.shiftIn_lt (x : Session) (v : Bool) (hshift : x.shift.toNat < 2 ^ x.bitPos) :
    (x.shiftIn v).toNat < 2 ^ (x.bitPos + 1) := by
  rw [Session.shiftIn_toNat, Nat.pow_succ]
  have hmod := Nat.mod_le x.shift.toNat 128
  have hv := v.toNat_lt
  omega

/-- `Accumulate` keeps the bit count within the buffer and the shift register below the unfinished byte's position (R42 items 1, 2). -/
theorem Session.accumulate_ok {P : Params} {x : Session} (v : Bool) (hcount : x.bitCount ≤ 8 * P.rawCap)
    (hshift : x.shift.toNat < 2 ^ x.bitPos) :
    (x.accumulate P v).bitCount ≤ 8 * P.rawCap ∧ (x.accumulate P v).shift.toNat < 2 ^ (x.accumulate P v).bitPos := by
  rcases x.accumulate_cases P [] v with ⟨_, hx, _⟩ | ⟨hroom, hpart, hx, _⟩ | ⟨hroom, _, hx, _⟩ <;> rw [hx]
  · exact ⟨hcount, hshift⟩
  · have hpos : (x.bitCount + 1) % 8 = x.bitPos + 1 := by unfold Session.bitPos at hpart ⊢; omega
    refine ⟨hroom, ?_⟩
    show (x.shiftIn v).toNat < 2 ^ ((x.bitCount + 1) % 8)
    rw [hpos]
    exact x.shiftIn_lt v hshift
  · exact ⟨hroom, Nat.two_pow_pos _⟩

/-- `Accumulate` keeps the cells canonical, within the buffer and listed below the count of closed bytes (R113). -/
theorem Session.accumulateCells_ok {P : Params} {x : Session} {cs : List Host.Cell} (v : Bool) (hwf : Cells.wf cs = true)
    (hcap : WithinCapacity cs P.rawCap) (hlisted : ListedBelow cs x.byteCount) :
    Cells.wf (x.accumulateCells P cs v) = true ∧ WithinCapacity (x.accumulateCells P cs v) P.rawCap ∧
      ListedBelow (x.accumulateCells P cs v) (x.accumulate P v).byteCount := by
  refine ⟨x.accumulateCells_wf P cs v hwf, ?_⟩
  unfold Session.byteCount at hlisted ⊢
  rcases x.accumulate_cases P cs v with ⟨_, hx, hcs⟩ | ⟨_, hpart, hx, hcs⟩ | ⟨hroom, _, hx, hcs⟩ <;> rw [hx, hcs]
  · exact ⟨hcap, hlisted⟩
  · refine ⟨hcap, hlisted.mono ?_⟩
    unfold Session.bitPos at hpart
    dsimp only
    omega
  · unfold Session.byteCount
    exact ⟨hcap.write (by omega) _, (hlisted.write _).mono (by dsimp only; omega)⟩

/-- `DEC.BIT` keeps what holds of a calibrated session value (R110 to R113). -/
theorem SessionValueOk.bitWith {P : Params} {v : SessionValue} (h : SessionValueOk P v) (hseed : v.regs.seeded = true)
    (hcal : v.regs.calibrating = false) (d t : Nat) (lvl : Level) :
    SessionValueOk P
      { regs := v.regs.bitWith P d (P.stamp t) lvl, cells := v.regs.accumulateCells P v.cells (v.regs.bitOf d) } := by
  obtain ⟨hcount, hshift, _, _⟩ := h.regs
  obtain ⟨hcount', hshift'⟩ := Session.accumulate_ok (v.regs.bitOf d) hcount hshift
  obtain ⟨hwf, hcap, hlisted⟩ := Session.accumulateCells_ok (v.regs.bitOf d) h.canonical h.capacity h.listed
  exact
    { regs := ⟨hcount', hshift', fun hs => by simp [hseed] at hs,
        fun _ => (v.regs.bitWith_calibrating P d _ lvl).trans hcal⟩
      period := by
        rw [Session.bitWith_nominalPeriod, minUpdate_eq_min]
        exact Nat.lt_of_le_of_lt (Nat.min_le_left _ _) h.period
      edgeTime := P.stamp_lt t
      canonical := hwf
      capacity := hcap
      listed := hlisted }

end Sys2Proof.Machine
end

section
/-! The invariant of R42: its parts, each operation that writes a register, and the whole step. -/

namespace Sys2Proof.Machine

/-! ### Parameters and lengths -/

/-- The capacities a fitting machine has: every legal frame and payload fits its buffer (R8, log 5). -/
theorem Params.capacities_of_fits {P : Params} (h : P.fits = true) : 255 ≤ P.payCap ∧ 261 ≤ P.rawCap := by
  simp only [Params.fits, Bool.and_eq_true, decide_eq_true_eq] at h
  omega

/-- `tx_frame_len` holds the length of every frame (R29). -/
theorem frameLen_toNat (n : Byte) : (BitVec.ofNat 9 (n.toNat + 6)).toNat = n.toNat + 6 := by
  rw [BitVec.toNat_ofNat]
  omega

theorem byteLen_toNat {n : Nat} (h : n < 256) : (BitVec.ofNat 8 n).toNat = n := by
  rw [BitVec.toNat_ofNat]
  exact Nat.mod_eq_of_lt h

/-- A parsed frame carries as many payload bytes as its length byte says (R129). -/
theorem parseFrame_payload_length {P : Params} {bytes : List Byte} {f : Frame} (h : parseFrame P bytes = .ok f) :
    f.payload.length = f.length.toNat := by
  obtain ⟨_, hlen, _, rfl⟩ := (parseFrame_ok_iff P bytes f).mp h
  simp only [frameIn, slice, List.length_take, List.length_drop]
  unfold declaredLength at hlen ⊢
  omega

/-- A split loses exactly the colon (R131). -/
theorem splitCredentials_length {P : Params} {p a b : List Byte} (h : splitCredentials P p = .ok a b) :
    a.length + b.length + 1 = p.length := by
  unfold splitCredentials at h
  cases hk : colonIndex P p with
  | none => rw [hk] at h; cases h
  | some k =>
    rw [hk] at h
    cases h
    have hlt := (colonIndex_some P p k hk).1
    simp only [List.length_take, List.length_drop]
    omega

theorem State.splitPayload_length {s : State} {a b : List Byte} (h : s.splitPayload = .ok a b) :
    a.length + b.length + 1 = s.frame.len.toNat := by
  rw [splitCredentials_length h]
  exact Cells.memRead_length _ _ _ _

/-! ### Parts of the invariant -/

theorem SenderOk.of_receiver {s : State} (h : s.role = .receiver) : SenderOk s := fun hs => absurd (h.symm.trans hs) nofun

theorem ReceiverOk.of_sender {s : State} (h : s.role = .sender) : ReceiverOk s := fun hr => absurd (h.symm.trans hr) nofun

/-- A Sender holds neither a frame nor credentials, whatever its state (R42 items 4, 6 and 7). -/
theorem FlagsOk.of_sender {s : State} (hrole : s.role = .sender) (h : SenderOk s) : FlagsOk s := by
  obtain ⟨_, _, hframe, hcred⟩ := h hrole
  simp [FlagsOk, hrole, hframe, hcred]

/-- A Receiver's flags follow its state (R42 items 6 and 7). -/
theorem FlagsOk.of_receiver {s : State} (hrole : s.role = .receiver) (hframe : s.frame.valid = decide (s.st = rApplying))
    (hcred : s.cred.valid = decide (s.st = rFinished)) : FlagsOk s := by
  simp [FlagsOk, hrole, hframe, hcred]

theorem FlagsOk.receiver_flags {s : State} (h : FlagsOk s) (hrole : s.role = .receiver) :
    s.frame.valid = decide (s.st = rApplying) ∧ s.cred.valid = decide (s.st = rFinished) := by
  obtain ⟨hframe, hcred⟩ := h
  simp only [hrole, true_and] at hframe hcred
  exact ⟨by rw [Bool.eq_iff_iff, hframe, decide_eq_true_iff], by rw [Bool.eq_iff_iff, hcred, decide_eq_true_iff]⟩

/-- A Receiver's transmit registers are at rest (R42 item 5), so only its credentials' lengths matter (R131). -/
theorem LengthsOk.of_receiver {s : State} (hrole : s.role = .receiver)
    (htx : s.tx = { frameLen := 0#9, startTime := 0, level := s.params.idleLevel })
    (hcred : s.cred.valid = true → s.cred.ssidLen.toNat + s.cred.passwordLen.toNat + 1 = s.frame.len.toNat) : LengthsOk s := by
  exact ⟨.inl (by rw [htx]), fun _ hs => absurd (hrole.symm.trans hs) nofun, hcred, fun h => absurd (by rw [htx]) h⟩

/-- The invariant says of a state's session what `SessionValueOk` says of its session value. -/
theorem Inv.sessionValueOk {s : State} (h : Inv s) : SessionValueOk s.params s.sessionValue := by
  obtain ⟨_, hsession, ⟨hperiod, hedge, _⟩, ⟨hwf, hcap, hlisted, _⟩, _⟩ := h
  exact ⟨hsession, hperiod, hedge, (Memory.wf_iff _).mp hwf .rawBytes, hcap .rawBytes, hlisted⟩

/-- Outside a transmission the line is at its idle level (R163 item 4). -/
theorem Inv.line_quiet {s : State} (h : Inv s) (hst : s.st ≠ sTransmitting) : s.tx.level = s.params.idleLevel := by
  obtain ⟨_, _, _, _, _, _, _, _, _, _, hline⟩ := h
  exact not_imp_comm.mp hline hst

/-- The invariant speaks only of the parameters and the registers of the spec other than the outcome. -/
theorem Inv.of_registers_eq {s t : State} (h : Inv s) (hparams : t.params = s.params) (hrole : t.role = s.role) (hst : t.st = s.st)
    (hsession : t.session = s.session) (hfront : t.frontEnd = s.frontEnd) (hframe : t.frame = s.frame) (htx : t.tx = s.tx)
    (hcred : t.cred = s.cred) (hmem : t.mem = s.mem) : Inv t := by
  unfold Inv WidthsOk BuffersOk SenderOk ReceiverOk FlagsOk LengthsOk at h ⊢
  rw [hparams, hrole, hst, hsession, hfront, hframe, htx, hcred, hmem]
  exact h

/-- The state after reset satisfies the invariant (R41, R42). -/
theorem Inv.resetAs {P : Params} (hfits : P.fits = true) (r : Role) : Inv (State.resetAs P r) := by
  have hlisted : ListedBelow [] ((Session.empty P).byteCount) := (Session.empty_byteCount P).symm ▸ ListedBelow.zero []
  have hsend : SenderOk (State.resetAs P r) := fun _ => ⟨rfl, rfl, rfl, rfl⟩
  have hflags : FlagsOk (State.resetAs P r) := by
    cases r
    · exact FlagsOk.of_sender rfl hsend
    · exact FlagsOk.of_receiver rfl rfl rfl
  refine ⟨hfits, SessionOk.empty P,
    ⟨Nat.two_pow_pos _, Nat.two_pow_pos _, Nat.two_pow_pos _, Nat.two_pow_pos _, Nat.two_pow_pos _⟩,
    ⟨rfl, fun name => ?_, hlisted, ListedBelow.zero _, ListedBelow.zero _, ListedBelow.zero _, ListedBelow.zero _⟩,
    hsend, fun _ => ⟨rfl, fun h => absurd rfl h, (by decide : rListening ≠ rReserved)⟩, hflags,
    ⟨.inl rfl, fun h => absurd h (by decide : sIdle ≠ sTransmitting), nofun, fun h => absurd rfl h⟩⟩
  cases name <;> exact fun _ _ => rfl

/-- Settles O54: `Inv.resetAs` for either strap; the defaults' premises and `BC_W` are computed. -/
theorem resetSatisfiesTheInvariant : Obligations.ResetSatisfiesTheInvariant := by
  have hfits : Params.default.fits = true := by decide
  exact ⟨Inv.resetAs hfits .sender, Inv.resetAs hfits, by decide, hfits, by decide⟩

/-! ### The Sender's ticks -/

/-- `S.TRIGGER` latches a frame that fits its buffer, and starts the transmission that drives the line (R143). -/
theorem Inv.trigger {s : State} (h : Inv s) (hrole : s.role = .sender) :
    Inv { s with
      mem := s.mem.copyIn .txFrame s.frameToSend
      tx := { frameLen := BitVec.ofNat 9 (s.ports.txLen.toNat + 6), startTime := s.now
              level := levelAt s.params s.frameToSend 0 }
      st := sTransmitting } := by
  obtain ⟨hfits, hsession, ⟨hperiod, hedge, hbits, hchange, _⟩, ⟨hwf, hcap, hraw, hpay, _, hssid, hpass⟩, hsend, _, _, _⟩ := h
  obtain ⟨_, _, _, hcred⟩ := hsend hrole
  obtain ⟨_, hroom⟩ := Params.capacities_of_fits hfits
  have hlen := s.frameToSend_length
  have hbyte := s.ports.txLen.isLt
  obtain ⟨hwf', hcap'⟩ := MemoryOk.copyIn ⟨hwf, hcap⟩ .txFrame (vs := s.frameToSend)
    (by rw [hlen]; show _ ≤ s.params.rawCap; omega)
  have hlisted : ListedBelow (s.mem.copyIn .txFrame s.frameToSend).txFrame (BitVec.ofNat 9 (s.ports.txLen.toNat + 6)).toNat := by
    rw [frameLen_toNat, ← hlen]
    exact ListedBelow.writeBlock _ _
  have hframeLen := frameLen_toNat s.ports.txLen
  have hleast : 6 ≤ (BitVec.ofNat 9 (s.ports.txLen.toNat + 6)).toNat := by omega
  have hmost : (BitVec.ofNat 9 (s.ports.txLen.toNat + 6)).toNat ≤ s.params.rawCap := by omega
  exact ⟨hfits, hsession, ⟨hperiod, hedge, hbits, hchange, s.params.stamp_lt _⟩,
    ⟨hwf', hcap', hraw, hpay, hlisted, hssid, hpass⟩, hsend, ReceiverOk.of_sender hrole, FlagsOk.of_sender hrole hsend,
    ⟨.inr ⟨hleast, hmost⟩, fun _ _ => hleast, fun hv => by simp [hcred] at hv, fun _ => rfl⟩⟩

/-- A Sender that keeps its frame may drive its line only while it transmits, and may leave that state only with a quiet line
(R144, R145, R147). -/
theorem Inv.setLine {s : State} (h : Inv s) (hrole : s.role = .sender) {lvl : Level} {st : BitVec 2}
    (hst : st = sTransmitting → s.st = sTransmitting) (hlvl : lvl ≠ s.params.idleLevel → st = sTransmitting) :
    Inv { s with tx := { s.tx with level := lvl }, st := st } := by
  obtain ⟨hfits, hsession, hwidths, hbuffers, hsend, _, _, ⟨hlen, htransmit, hcredlen, _⟩⟩ := h
  exact ⟨hfits, hsession, hwidths, hbuffers, hsend, ReceiverOk.of_sender hrole, FlagsOk.of_sender hrole hsend,
    ⟨hlen, fun h => htransmit (hst h), hcredlen, hlvl⟩⟩

/-! ### The Receiver's ticks -/

/-- A Receiver that is not done may take any session value the invariant allows and listen, holding no valid frame (R107 to R115,
R158, R170). -/
theorem Inv.listenWith {s : State} (h : Inv s) (hrole : s.role = .receiver) (hst : s.st ≠ rFinished) {v : SessionValue}
    (hv : SessionValueOk s.params v) :
    Inv { s with session := v.regs, mem := { s.mem with rawBytes := v.cells }, st := rListening
                 frame := { s.frame with valid := false } } := by
  obtain ⟨hfits, _, ⟨_, _, _, hchange, hstart⟩, ⟨hwf, hcap, _, hpay, htxf, hssid, hpass⟩, _, hrecv, hflags, _⟩ := h
  obtain ⟨htx, _, _⟩ := hrecv hrole
  obtain ⟨_, hcred⟩ := hflags.receiver_flags hrole
  have hnocred : s.cred.valid = false := by rw [hcred, decide_eq_false hst]
  obtain ⟨hwf', hcap'⟩ := MemoryOk.setCells ⟨hwf, hcap⟩ .rawBytes hv.canonical hv.capacity
  exact ⟨hfits, hv.regs, ⟨hv.period, hv.edgeTime, hv.bitCount_lt, hchange, hstart⟩,
    ⟨hwf', hcap', hv.listed, hpay, htxf, hssid, hpass⟩, SenderOk.of_receiver hrole,
    fun _ => ⟨htx, fun hne => absurd rfl hne, (by decide : rListening ≠ rReserved)⟩, FlagsOk.of_receiver hrole rfl hnocred,
    LengthsOk.of_receiver hrole htx fun hc => absurd (hnocred.symm.trans hc) nofun⟩

/-- The decoder's updates of a listening Receiver. -/
theorem Inv.setSession {s : State} (h : Inv s) (hrole : s.role = .receiver) (hst : s.st = rListening) {v : SessionValue}
    (hv : SessionValueOk s.params v) : Inv { s with session := v.regs, mem := { s.mem with rawBytes := v.cells } } := by
  have hlisten := h.listenWith hrole (by rw [hst]; decide) hv
  obtain ⟨_, _, _, _, _, _, hflags, _⟩ := h
  obtain ⟨hframe, _⟩ := hflags.receiver_flags hrole
  have hnoframe : s.frame.valid = false := by rw [hframe, hst]; rfl
  exact hlisten.of_registers_eq rfl rfl hst rfl rfl (by rw [← hnoframe]) rfl rfl rfl

/-- A session may end in an error and another begin with the tick's edge (R114, R170). -/
theorem Inv.endSession {s : State} (h : Inv s) (hrole : s.role = .receiver) (hst : s.st = rListening) (k : ErrorKind) :
    Inv (s.endSession k) := by
  have hempty := h.sessionValueOk.empty
  rw [State.endSession_eq]
  split_ifs
  · exact (h.setSession hrole hst (hempty.seedWith s.ports.now s.ports.rxLevel)).of_registers_eq rfl rfl hst.symm rfl rfl rfl rfl rfl rfl
  · exact (h.setSession hrole hst hempty).of_registers_eq rfl rfl hst.symm rfl rfl rfl rfl rfl rfl

/-- A frame parsed from the session fills the frame register and its buffer (R153). -/
theorem Inv.acceptFrame {s : State} (h : Inv s) (hrole : s.role = .receiver) (hst : s.st = rListening) {f : Frame}
    (hf : s.parsed = .ok f) : Inv (s.acceptFrame f) := by
  have hv := h.sessionValueOk.empty
  obtain ⟨hfits, _, ⟨_, _, _, hchange, hstart⟩, ⟨hwf, hcap, _, _, htxf, hssid, hpass⟩, _, hrecv, hflags, _⟩ := h
  obtain ⟨htx, _, _⟩ := hrecv hrole
  obtain ⟨_, hcred⟩ := hflags.receiver_flags hrole
  have hnocred : s.cred.valid = false := by rw [hcred, hst]; rfl
  have hlen : f.payload.length = f.length.toNat := parseFrame_payload_length hf
  have hbyte := f.length.isLt
  obtain ⟨hroom, _⟩ := Params.capacities_of_fits hfits
  obtain ⟨hwf', hcap'⟩ := MemoryOk.copyIn ⟨hwf, hcap⟩ .framePayload (vs := f.payload)
    (by rw [hlen]; show _ ≤ s.params.payCap; omega)
  have hlisted : ListedBelow (s.mem.copyIn .framePayload f.payload).framePayload f.length.toNat :=
    hlen ▸ ListedBelow.writeBlock _ _
  exact ⟨hfits, hv.regs, ⟨hv.period, hv.edgeTime, hv.bitCount_lt, hchange, hstart⟩,
    ⟨hwf', hcap', hv.listed, hlisted, htxf, hssid, hpass⟩, SenderOk.of_receiver hrole,
    fun _ => ⟨htx, fun _ => rfl, (by decide : rApplying ≠ rReserved)⟩, FlagsOk.of_receiver hrole rfl hnocred,
    LengthsOk.of_receiver hrole htx fun hc => absurd (hnocred.symm.trans hc) nofun⟩

/-- The split payload fills the credential registers and their buffers (R157). -/
theorem Inv.applyCredentials {s : State} (h : Inv s) (hrole : s.role = .receiver) (hst : s.st = rApplying) {a b : List Byte}
    (hsplit : s.splitPayload = .ok a b) : Inv (s.applyCredentials a b) := by
  obtain ⟨hfits, hsession, hwidths, ⟨hwf, hcap, hraw, hpay, htxf, _, _⟩, _, hrecv, _, _⟩ := h
  obtain ⟨htx, hempty, _⟩ := hrecv hrole
  have hlen := State.splitPayload_length hsplit
  have hbyte := s.frame.len.isLt
  obtain ⟨hroom, _⟩ := Params.capacities_of_fits hfits
  have ha := byteLen_toNat (n := a.length) (by omega)
  have hb := byteLen_toNat (n := b.length) (by omega)
  have hmem := MemoryOk.copyIn ⟨hwf, hcap⟩ .ssid (vs := a) (by show _ ≤ s.params.payCap; omega)
  obtain ⟨hwf', hcap'⟩ := hmem.copyIn .password (vs := b) (by show _ ≤ s.params.payCap; omega)
  have hssid : ListedBelow ((s.mem.copyIn .ssid a).copyIn .password b).ssid (BitVec.ofNat 8 a.length).toNat :=
    ha.symm ▸ ListedBelow.writeBlock _ _
  have hpass : ListedBelow ((s.mem.copyIn .ssid a).copyIn .password b).password (BitVec.ofNat 8 b.length).toNat :=
    hb.symm ▸ ListedBelow.writeBlock _ _
  refine ⟨hfits, hsession, hwidths, ⟨hwf', hcap', hraw, hpay, htxf, hssid, hpass⟩, SenderOk.of_receiver hrole,
    fun _ => ⟨htx, fun _ => hempty (by rw [hst]; decide), (by decide : rFinished ≠ rReserved)⟩, FlagsOk.of_receiver hrole rfl rfl,
    LengthsOk.of_receiver hrole htx fun _ => ?_⟩
  rw [State.applyCredentials_cred, State.applyCredentials_frame, ha, hb]
  exact hlen

/-! ### Every step -/

/-- A tick's operation keeps the invariant (R42). -/
theorem Inv.tickRun {s u : State} {i : Instr} (h : Inv s) (hrun : TickRun s i u) : Inv u := by
  have hv := h.sessionValueOk
  cases hrun with
  | reset =>
    obtain ⟨hfits, _⟩ := h
    exact (Inv.resetAs hfits s.ports.roleStrap).of_registers_eq rfl rfl rfl rfl rfl rfl rfl rfl rfl
  | quiet => exact h
  | trigger hrole => exact h.trigger hrole
  | drive hrole hst => exact (h.setLine hrole (fun _ => hst) (fun _ => rfl)).of_registers_eq rfl rfl hst rfl rfl rfl rfl rfl rfl
  | transmitted hrole => exact h.setLine hrole (fun hst => absurd hst (by decide : sCooldown ≠ sTransmitting)) (fun hne => absurd rfl hne)
  | timeout hrole hst =>
    have hquiet := h.line_quiet (by rw [hst]; decide)
    have hset := h.setLine hrole (fun hst => absurd hst (by decide : sListening ≠ sTransmitting)) (fun hne => absurd hquiet hne)
    exact hset.of_registers_eq rfl rfl rfl rfl rfl rfl rfl rfl rfl
  | seed hrole hst => exact h.setSession hrole hst (hv.seedWith s.ports.now s.ports.rxLevel)
  | calibrate hrole hst hseed => exact h.setSession hrole hst (hv.calibrateWith hseed s.delta s.ports.now s.ports.rxLevel)
  | bit hrole hst hseed hcal => exact h.setSession hrole hst (hv.bitWith hseed hcal s.delta s.ports.now s.ports.rxLevel)
  | endSession _ hrole hst => exact h.endSession hrole hst _
  | accept hrole hst hf => exact h.acceptFrame hrole hst hf
  | apply hrole hst hsplit => exact h.applyCredentials hrole hst hsplit
  | credentialError hrole hst =>
    exact (h.listenWith hrole (by rw [hst]; decide) hv.empty).of_registers_eq rfl rfl rfl rfl rfl rfl rfl rfl rfl

/-- The front end may take any time that fits, in a Receiver (R26, R27). -/
theorem Inv.setFrontEnd {s : State} (h : Inv s) (hrole : s.role = .receiver) {fe : FrontEnd}
    (hfe : fe.lastChangeTime < 2 ^ s.params.tsW) : Inv { s with frontEnd := fe } := by
  obtain ⟨hfits, hsession, ⟨hperiod, hedge, hbits, _, hstart⟩, hbuffers, _, hrecv, hflags, hlengths⟩ := h
  exact ⟨hfits, hsession, ⟨hperiod, hedge, hbits, hfe, hstart⟩, hbuffers, SenderOk.of_receiver hrole, hrecv, hflags, hlengths⟩

theorem Inv.frontEndAfter_lt {s : State} (h : Inv s) : s.frontEndAfter.lastChangeTime < 2 ^ s.params.tsW := by
  obtain ⟨_, _, ⟨_, _, _, hchange, _⟩, _⟩ := h
  unfold State.frontEndAfter
  dsimp only
  split_ifs
  · exact s.params.stamp_lt _
  · exact hchange

/-- A whole tick keeps the invariant: the operation, then the front end's writes (R162). -/
theorem Inv.closeTick {s u : State} {i : Instr} (h : Inv s) (hrun : TickRun s i u) (sel : BitVec 16) :
    Inv (closeTick (.tick sel) s u) := by
  have hu := h.tickRun hrun
  unfold Machine.closeTick State.samplesLine
  dsimp only
  split_ifs with hsample
  · simp only [Bool.and_eq_true, Bool.not_eq_true', beq_iff_eq] at hsample
    obtain ⟨hrst, hrole⟩ := hsample
    rcases hrun.role with hsame | ⟨hset, _⟩
    · exact hu.setFrontEnd (hsame.trans hrole) (hrun.params ▸ h.frontEndAfter_lt)
    · exact absurd (hrst.symm.trans hset) nofun
  · exact hu

/-- Fetching keeps the invariant: it touches only the inputs (R40). -/
theorem Inv.fetch {s : State} (h : Inv s) : Inv s.fetch.1 := by
  obtain ⟨hparams, hrole, hst, hsession, hfront, hframe, htx, hcred, _, hmem, _⟩ := s.fetch_registers
  exact h.of_registers_eq hparams hrole hst hsession hfront hframe htx hcred hmem

theorem Inv.returning {s : State} (h : Inv s) (r : FuncResult) : Inv (s.returning r) :=
  h.of_registers_eq rfl rfl rfl rfl rfl rfl rfl rfl rfl

/-- A step keeps the invariant. -/
theorem Inv.step {s t : State} (h : Inv s) (hstep : step s = .next t) : Inv t := by
  rcases step_next_inversion hstep with ⟨sel, i, u, _, _, hrun, rfl⟩ | ⟨_, r, rfl⟩
  · exact h.fetch.closeTick hrun sel
  · exact h.fetch.returning r

/-- Settles O53: `Inv.resetAs` at reset, `Inv.step` across a step, and the period as in O32. -/
theorem everyStepKeepsTheInvariant : Obligations.EveryStepKeepsTheInvariant :=
  ⟨fun _ r hfits => Inv.resetAs hfits r, fun s t h hstep => ⟨h.step hstep, calibratedPeriodNeverGrows s t hstep⟩⟩

end Sys2Proof.Machine
end

section
/-! The bytes of a serialised frame: where each stands (R58), and the BYTE operation its offset decodes to (R73). -/

namespace Sys2Proof

/-- A frame is well formed when its length byte is the length of its payload (R125). -/
theorem Frame.wf_iff (f : Frame) : f.wf = true ↔ f.payload.length = f.length.toNat := decide_eq_true_iff

end Sys2Proof

namespace Sys2Proof.Machine

/-! ### The decoder of frame bytes, offset by offset -/

theorem decodeSig_self (want : Byte) (op : Instr) : decodeSig want want op = .ok op := if_pos rfl

/-- Offsets 5 to `4 + len` hold the payload. -/
theorem decodeByte_payload (P : Params) {offset : Nat} {len : Byte} (b : Byte) (hlow : 5 ≤ offset)
    (hhigh : offset < 5 + len.toNat) : decodeByte P offset len b = .ok (.framePayload b) := by
  unfold decodeByte
  rw [if_neg (by omega), if_neg (by omega), if_neg (by omega), if_neg (by omega), if_neg (by omega), if_pos hhigh]

theorem decodeByte_checksum (P : Params) (len b : Byte) : decodeByte P (5 + len.toNat) len b = .ok (.frameChecksum b) := by
  unfold decodeByte
  rw [if_neg (by omega), if_neg (by omega), if_neg (by omega), if_neg (by omega), if_neg (by omega), if_neg (by omega), if_pos rfl]

/-- Bytes beyond the checksum are no part of the frame (R58, R80). -/
theorem decodeByte_pastFrame (P : Params) {offset : Nat} {len : Byte} (b : Byte) (h : len.toNat + 6 ≤ offset) :
    decodeByte P offset len b = .error .pastFrame := by
  unfold decodeByte
  rw [if_neg (by omega), if_neg (by omega), if_neg (by omega), if_neg (by omega), if_neg (by omega), if_neg (by omega),
    if_neg (by omega)]

/-! ### The layout of a serialised frame -/

/-- The five bytes of signature and length, then the payload and its checksum (R58). -/
theorem serialize_eq (P : Params) (f : Frame) :
    serialize P f = [P.sig0, P.sig1, P.sig2, P.sig3, f.length] ++ (f.payload ++ [f.checksum]) := by
  simp [serialize, Params.sig]

theorem serialize_take_header (P : Params) (f : Frame) :
    (serialize P f).take 5 = [P.sig0, P.sig1, P.sig2, P.sig3, f.length] := by
  rw [serialize_eq, List.take_append_of_le_length (Nat.le_refl 5)]
  rfl

/-- After the header a frame holds its payload and checksum. -/
theorem serialize_getElem?_body (P : Params) (f : Frame) (k : Nat) :
    (serialize P f)[5 + k]? = (f.payload ++ [f.checksum])[k]? := by
  rw [serialize_eq, List.getElem?_append_right (Nat.le_add_right 5 k)]
  congr 1
  exact Nat.add_sub_cancel_left 5 k

theorem serialize_getElem?_payload (P : Params) {f : Frame} {k : Nat} {b : Byte} (h : f.payload[k]? = some b) :
    (serialize P f)[5 + k]? = some b := by
  obtain ⟨hk, _⟩ := List.getElem?_eq_some_iff.mp h
  rw [serialize_getElem?_body, List.getElem?_append_left hk, h]

theorem serialize_getElem?_checksum (P : Params) (f : Frame) :
    (serialize P f)[5 + f.payload.length]? = some f.checksum := by
  rw [serialize_getElem?_body, List.getElem?_concat_length]

/-- Settles O4: the layout of `serialize` against the branches of `decodeByte`. -/
theorem serialisedFrameBytesDecodeByPosition : Obligations.SerialisedFrameBytesDecodeByPosition := by
  intro P f hwf
  have hlen := f.wf_iff.mp hwf
  refine ⟨decodeSig_self _ _, decodeSig_self _ _, decodeSig_self _ _, decodeSig_self _ _, serialize_take_header P f, rfl,
    fun k b hb => ⟨serialize_getElem?_payload P hb, ?_⟩, hlen ▸ serialize_getElem?_checksum P f, decodeByte_checksum P _ _,
    hlen ▸ serialize_length P f, fun k b hk => decodeByte_pastFrame P b hk⟩
  obtain ⟨hk, _⟩ := List.getElem?_eq_some_iff.mp hb
  exact decodeByte_payload P b (Nat.le_add_right 5 k) (by omega)

end Sys2Proof.Machine
end

section
/-! The bits of a byte sequence in wire order (R51, R66), and the byte assembler that puts them together again (R53, R113). -/

namespace Sys2Proof.Machine

/-! ### Wire order -/

theorem bitsOf_getElem? (b : Byte) {j : Nat} (h : j < 8) : (bitsOf b)[j]? = some (b.getLsbD (7 - j)) := by
  have hmap : bitsOf b = (List.range 8).map (fun k => b.getLsbD (7 - k)) := rfl
  rw [hmap, List.getElem?_map, List.getElem?_range h]
  rfl

theorem wireBits_cons (b : Byte) (rest : List Byte) : wireBits (b :: rest) = bitsOf b ++ wireBits rest := rfl

/-- Settles O25, by induction on the bytes: the first eight bits are the first byte's, the others those of the rest. -/
theorem wireBitOrder : Obligations.WireBitOrder := by
  intro bytes
  induction bytes with
  | nil => intro j h; exact absurd h (Nat.not_lt_zero j)
  | cons b rest ih =>
    intro j h
    rw [List.length_cons] at h
    rw [wireBits_cons]
    by_cases hj : j < 8
    · rw [List.getElem?_append_left hj, bitsOf_getElem? b hj, Nat.mod_eq_of_lt hj, Nat.div_eq_of_lt hj]
      rfl
    · obtain ⟨k, rfl⟩ : ∃ k, j = k + 8 := ⟨j - 8, by omega⟩
      have hskip : (bitsOf b ++ wireBits rest)[k + 8]? = (wireBits rest)[k]? := rfl
      rw [hskip, ih k (by omega), Nat.add_mod_right, Nat.add_div_right k (by decide)]
      rfl

/-! ### The byte assembler -/

/-- One bit shifted into the byte under assembly: `{sh[6:0], v}` (R113). -/
def shiftBit (sh : Byte) (v : Bool) : Byte := BitVec.concat (sh.setWidth 7) v

theorem Session.shiftIn_eq_shiftBit (x : Session) (v : Bool) : x.shiftIn v = shiftBit x.shift v := rfl

theorem shiftBit_getLsbD (sh : Byte) (v : Bool) (i : Nat) :
    (shiftBit sh v).getLsbD i = if i = 0 then v else (decide (i < 8) && sh.getLsbD (i - 1)) := by
  unfold shiftBit
  rw [BitVec.getLsbD_concat]
  split
  · rfl
  · rw [BitVec.getLsbD_setWidth]
    congr 1
    exact decide_eq_decide.mpr (by omega)

/-- Eight bits shifted in leave nothing of the register's old content: they are the byte they came from (R51, R113). -/
theorem foldl_shiftBit_bitsOf (sh b : Byte) : (bitsOf b).foldl shiftBit sh = b := by
  apply BitVec.eq_of_getLsbD_eq
  intro i hi
  simp only [bitsOf, List.foldl_cons, List.foldl_nil, shiftBit_getLsbD]
  interval_cases i <;> rfl

/-- `Accumulate` on the session registers and the cells together (R113). -/
def assembleBit (P : Params) (z : Session × List Host.Cell) (v : Bool) : Session × List Host.Cell :=
  (z.1.accumulate P v, z.1.accumulateCells P z.2 v)

/-- Within a byte a bit is shifted in, and no cell is written. -/
theorem assembleBit_within (P : Params) {x : Session} (cs : List Host.Cell) (v : Bool) (hroom : x.bitCount < 8 * P.rawCap)
    (hpos : x.bitPos ≠ 7) :
    assembleBit P (x, cs) v = ({ x with shift := shiftBit x.shift v, bitCount := x.bitCount + 1 }, cs) := by
  rcases x.accumulate_cases P cs v with ⟨hfull, _⟩ | ⟨_, _, hx, hcs⟩ | ⟨_, hlast, _⟩
  · omega
  · exact Prod.ext hx hcs
  · exact absurd hlast hpos

/-- The eighth bit clears the register and writes the closed byte. -/
theorem assembleBit_closes (P : Params) {x : Session} (cs : List Host.Cell) (v : Bool) (hroom : x.bitCount < 8 * P.rawCap)
    (hpos : x.bitPos = 7) :
    assembleBit P (x, cs) v =
      ({ x with shift := 0#8, bitCount := x.bitCount + 1 }, Cells.write cs x.byteCount (shiftBit x.shift v)) := by
  rcases x.accumulate_cases P cs v with ⟨hfull, _⟩ | ⟨_, hpart, _⟩ | ⟨_, _, hx, hcs⟩
  · omega
  · exact absurd hpos hpart
  · exact Prod.ext hx hcs

/-- Bits that leave a byte unfinished are shifted in one after another, and no cell is written. -/
theorem foldl_assembleBit_within (P : Params) (vs : List Bool) : ∀ (x : Session) (cs : List Host.Cell),
    x.bitCount < 8 * P.rawCap → x.bitPos + vs.length < 8 →
    vs.foldl (assembleBit P) (x, cs) =
      ({ x with shift := vs.foldl shiftBit x.shift, bitCount := x.bitCount + vs.length }, cs) := by
  induction vs with
  | nil => intro x cs _ _; rfl
  | cons v vs ih =>
    intro x cs hroom hpos
    unfold Session.bitPos at hpos
    rw [List.length_cons] at hpos
    rw [List.foldl_cons, assembleBit_within P cs v hroom (by unfold Session.bitPos; omega),
      ih _ _ (by dsimp only; omega) (by unfold Session.bitPos; dsimp only; omega), List.foldl_cons, List.length_cons,
      Nat.add_right_comm, Nat.add_assoc]

/-- From a byte boundary the eight bits of a byte close it: one cell is written, at the byte index (R113). -/
theorem foldl_assembleBit_bitsOf (P : Params) (x : Session) (cs : List Host.Cell) (b : Byte) (hbound : x.bitCount % 8 = 0)
    (hroom : x.bitCount < 8 * P.rawCap) :
    (bitsOf b).foldl (assembleBit P) (x, cs) =
      ({ x with shift := 0#8, bitCount := x.bitCount + 8 }, Cells.write cs (x.bitCount / 8) b) := by
  obtain ⟨front, last, hlen, hbits⟩ : ∃ (front : List Bool) (last : Bool), front.length = 7 ∧ bitsOf b = front ++ [last] :=
    ⟨(bitsOf b).take 7, b.getLsbD 0, rfl, rfl⟩
  have hbyte := foldl_shiftBit_bitsOf x.shift b
  rw [hbits, List.foldl_append] at hbyte ⊢
  rw [foldl_assembleBit_within P front x cs hroom (by unfold Session.bitPos; omega), List.foldl_cons, List.foldl_nil,
    assembleBit_closes P cs _ (by dsimp only; omega) (by unfold Session.bitPos; dsimp only; omega)]
  have hindex : (x.bitCount + front.length) / 8 = x.bitCount / 8 := by omega
  unfold Session.byteCount
  dsimp only
  rw [hindex, hlen, ← hbyte]
  rfl

/-- Settles O31: the eight bits write exactly the cell at the byte index. -/
theorem eightBitsCloseAByte : Obligations.EightBitsCloseAByte := by
  intro P x cs b hbound hroom
  exact ⟨_, _, (foldl_assembleBit_bitsOf P x cs b hbound hroom).symm, rfl, rfl, Cells.read_write_same _ _ _ _,
    fun i hi => Cells.read_write_other _ _ _ _ _ hi⟩

end Sys2Proof.Machine
end

section
/-! The reach of the parser: the longest frame has 261 bytes, and nothing beyond them is read (R57, R128, R129). -/

namespace Sys2Proof.Machine

theorem slice_take (bytes : List Byte) {i k n : Nat} (h : i + k ≤ n) : slice (bytes.take n) i k = slice bytes i k := by
  unfold slice
  rw [List.drop_take, List.take_take, Nat.min_eq_left (by omega)]

theorem getD_take (bytes : List Byte) (d : Byte) {i n : Nat} (h : i < n) : (bytes.take n).getD i d = bytes.getD i d := by
  rw [List.getD_eq_getElem?_getD, List.getD_eq_getElem?_getD, List.getElem?_take_of_lt h]

theorem length_take_lt_iff (bytes : List Byte) {m n : Nat} (h : m ≤ n) : (bytes.take n).length < m ↔ bytes.length < m := by
  rw [List.length_take]
  omega

/-- The declared length is one byte (R75). -/
theorem declaredLength_lt (bytes : List Byte) : declaredLength bytes < 256 := (bytes.getD 4 0#8).isLt

theorem declaredLength_take (bytes : List Byte) {n : Nat} (h : 4 < n) : declaredLength (bytes.take n) = declaredLength bytes := by
  unfold declaredLength
  rw [getD_take _ _ h]

/-- The fields of a frame stand in its first 261 bytes (R58). -/
theorem frameIn_take (bytes : List Byte) {n : Nat} (h : 261 ≤ n) : frameIn (bytes.take n) = frameIn bytes := by
  have hlen := declaredLength_lt bytes
  unfold frameIn
  rw [declaredLength_take _ (by omega), getD_take _ _ (by omega), getD_take _ _ (by omega), slice_take _ (by omega)]

/-- The parser reads nothing from index 261 on: every test has the same answer on the shortened sequence. -/
theorem parseFrame_take (P : Params) (bytes : List Byte) {n : Nat} (h : 261 ≤ n) :
    parseFrame P (bytes.take n) = parseFrame P bytes := by
  have hlen := declaredLength_lt bytes
  unfold parseFrame
  rw [declaredLength_take _ (by omega), frameIn_take _ h, slice_take _ (by omega)]
  simp only [length_take_lt_iff bytes (show 4 ≤ n by omega), length_take_lt_iff bytes (show 5 ≤ n by omega),
    length_take_lt_iff bytes (show declaredLength bytes + 6 ≤ n by omega)]

/-- A full buffer drops the bit (R57, R113). -/
theorem Session.accumulate_full (P : Params) {x : Session} (cs : List Host.Cell) (v : Bool) (hfull : 8 * P.rawCap ≤ x.bitCount) :
    x.accumulate P v = x ∧ x.accumulateCells P cs v = cs := by
  rcases x.accumulate_cases P cs v with ⟨_, hx, hcs⟩ | ⟨hroom, _⟩ | ⟨hroom, _⟩
  · exact ⟨hx, hcs⟩
  · omega
  · omega

/-- Settles O43: `Session.accumulate_full`, and `parseFrame_take` at the two lengths. -/
theorem parseReadsNothingBeyondCapacity : Obligations.ParseReadsNothingBeyondCapacity :=
  ⟨fun P _ cs v hfull => Session.accumulate_full P cs v hfull, fun P bytes hcap => parseFrame_take P bytes hcap,
    fun P bytes => parseFrame_take P bytes (Nat.le_refl 261)⟩

end Sys2Proof.Machine
end

section
/-! The buffers' canonical form, kept by every operation and every step (R50, R55, R56; log 4). -/

namespace Sys2Proof.Machine

theorem State.endSession_mem (s : State) (k : ErrorKind) : (s.endSession k).mem = s.mem := by
  rw [State.endSession_eq]

theorem State.acceptFrame_mem_wf {s : State} (f : Frame) (h : s.mem.wf = true) : (s.acceptFrame f).mem.wf = true :=
  Memory.wf_copyIn _ _ _ h

theorem State.applyCredentials_mem_wf {s : State} (a b : List Byte) (h : s.mem.wf = true) :
    (s.applyCredentials a b).mem.wf = true :=
  Memory.wf_copyIn _ _ _ (Memory.wf_copyIn _ _ _ h)

/-- The end of a session writes no cell unless it accepts a frame (R114). -/
theorem State.endOfFrame_mem_wf {s : State} (h : s.mem.wf = true) : s.endOfFrame.mem.wf = true := by
  rcases s.endOfFrame_cases with ⟨_, he⟩ | ⟨f, _, _, he⟩ | ⟨k, _, _, he⟩ <;> rw [he]
  · rwa [State.endSession_mem]
  · exact State.acceptFrame_mem_wf f h
  · rwa [State.endSession_mem]

/-- An operation writes buffers only by a closed byte or a block copy, which keep them canonical. -/
theorem exec_mem_wf {i : Instr} {s t : State} (hwf : s.mem.wf = true) (h : exec i s = .next t) : t.mem.wf = true := by
  cases i
  case sysReset => cases h; exact State.reset_mem_wf s.params s.ports.roleStrap
  case sTrigger => cases h; exact Memory.wf_copyIn _ _ _ hwf
  case decBit =>
    cases h
    exact Memory.wf_setCells _ .rawBytes _ hwf (Session.accumulateCells_wf _ _ _ _ ((Memory.wf_iff _).mp hwf .rawBytes))
  case rDiscard | rRejectSig | rRejectTrunc | rRejectChk => cases h; rwa [State.endSession_mem]
  case decIdle => cases h; exact State.endOfFrame_mem_wf hwf
  case rAccept => obtain ⟨f, _, rfl⟩ := execRAccept_next h; exact State.acceptFrame_mem_wf f hwf
  case rApply => obtain ⟨a, b, _, rfl⟩ := execRApply_next h; exact State.applyCredentials_mem_wf a b hwf
  all_goals cases h; exact hwf

/-- Settles O55: each operation by `exec_mem_wf`; fetching and closing a tick write no cell. -/
theorem buffersStayCanonical : Obligations.BuffersStayCanonical := by
  refine ⟨fun i s t hwf h => exec_mem_wf hwf h, fun s t hwf h => ?_⟩
  obtain ⟨-, -, -, -, -, -, -, -, -, hfetch, -⟩ := s.fetch_registers
  rw [← hfetch] at hwf
  rcases step_next_cases s t h with ⟨i, u, _, he, rfl⟩ | ⟨e, _, rfl⟩
  · obtain ⟨-, -, -, -, -, -, -, -, hclose, -⟩ := closeTick_registers s.fetch.2 s.fetch.1 u
    rw [hclose]
    exact exec_mem_wf hwf he
  · exact hwf

end Sys2Proof.Machine
end

section
/-! A Sender's tick once it has left `S_IDLE`: of the inputs it reads the reset and the time, nothing else (R64, R201). -/

namespace Sys2Proof.Machine

/-! ### A Sender's tick -/

/-- In a Sender the front end writes nothing (R105, R162). -/
theorem finishStep_sender {s : State} (hrole : s.role = .sender) (c : Code) (r : Host.Outcome State Fault Refusal) :
    finishStep c s r = r := by
  cases r with
  | next u => cases c <;> simp [finishStep, closeTick, State.samplesLine, hrole]
  | fault _ => rfl
  | refused _ => rfl

/-- Where the code decodes, the step is the operation's answer with the tick closed (R162). -/
theorem step_of_decode {s : State} {i : Instr} (hd : decode s.params s.fetch.2 = .ok i) :
    step s = finishStep s.fetch.2 s.fetch.1 (exec i s.fetch.1) := by
  unfold step
  rw [hd]

/-- A Sender's tick without reset is the operation that its state and inputs select (R141, R162). -/
theorem step_sender {s u : State} (hfetch : s.fetch = (u, .tick u.sel)) (hrole : u.role = .sender)
    (hrst : u.ports.rst = false) : step s = exec u.select.senderChoice u := by
  have hdecode : decode s.params s.fetch.2 = .ok u.select.senderChoice := by
    rw [hfetch]
    exact decodeTick_sender u.select hrst (congrArg Role.bit hrole)
  rw [step_of_decode hdecode, hfetch]
  exact finishStep_sender hrole _ _

/-! ### Other inputs at the same time -/

theorem State.txElapsed_setPorts (s : State) {q : Ports} (hnow : q.now = s.ports.now) :
    ({ s with ports := q } : State).txElapsed = s.txElapsed := by
  unfold State.txElapsed State.now
  rw [hnow]

/-- The waveform's level depends on the time alone (R98). -/
theorem State.driveLine_setPorts (s : State) {q : Ports} (hnow : q.now = s.ports.now) :
    ({ s with ports := q } : State).driveLine = { s.driveLine with ports := q } := by
  unfold State.driveLine
  rw [s.txElapsed_setPorts hnow]
  rfl

/-- Outside `S_IDLE` a Sender's operation is selected by its state and the time since the start of the transmission (R141). -/
theorem senderChoice_setPorts {s : State} {q : Ports} (hst : s.st ≠ sIdle) (hnow : q.now = s.ports.now) :
    ({ s with ports := q } : State).select.senderChoice = s.select.senderChoice := by
  have hidle : ¬ s.select.st = sIdle := hst
  have hidle' : ¬ ({ s with ports := q } : State).select.st = sIdle := hst
  have hdone : ({ s with ports := q } : State).select.txDone = s.select.txDone :=
    congrArg (fun e => decide (total s.params s.txFrameBytes ≤ e)) (s.txElapsed_setPorts hnow)
  have hwindow : ({ s with ports := q } : State).select.windowElapsed = s.select.windowElapsed :=
    congrArg (fun e => decide (s.params.tSTimeout ≤ e)) (s.txElapsed_setPorts hnow)
  unfold Select.senderChoice
  rw [if_neg hidle, if_neg hidle', hdone, hwindow]
  rfl

/-- Outside `S_IDLE` a Sender's tick carries other inputs at the same time through unchanged. -/
theorem exec_senderChoice_setPorts {s t : State} {q : Ports} (h : exec s.select.senderChoice s = .next t)
    (hst : s.st ≠ sIdle) (hnow : q.now = s.ports.now) :
    exec ({ s with ports := q } : State).select.senderChoice { s with ports := q } = .next { t with ports := q } := by
  have hidle : ¬ s.select.st = sIdle := hst
  rw [senderChoice_setPorts hst hnow]
  revert h
  unfold Select.senderChoice
  rw [if_neg hidle]
  split_ifs with htransmit hdone hcool hwindow <;> intro h <;> cases h
  · rfl
  · exact congrArg Host.Outcome.next (s.driveLine_setPorts hnow)
  · rfl
  · rfl
  · rfl

/-- Settles O20: the two ticks start in states that differ only in their inputs, at the same time. -/
theorem payloadIsLatchedAtTheTrigger : Obligations.PayloadIsLatchedAtTheTrigger := by
  intro s t p trig payload len rest hrole hst hrst hs h
  rw [step_sender (s.fetch_tick p rest hs) hrole hrst] at h
  refine (step_sender (State.fetch_tick _ _ rest rfl) ?_ ?_).trans ?_
  · exact hrole
  · exact hrst
  · exact exec_senderChoice_setPorts h hst rfl

end Sys2Proof.Machine
end

section
/-! The decoder against the encoder: select words, wire intervals and frame bytes (R71, R73, R77, R84). -/

namespace Sys2Proof.Machine

/-! ### Select words -/

/-- The value of a row has no bit outside the row's fixed bits (R77). -/
theorem tickTable_value_masked : ∀ r ∈ tickTable, r.value &&& r.mask = r.value := by decide

/-- However the don't-care bits are filled in, the word matches its row. -/
theorem TickRow.matches_fill {r : TickRow} (hr : r ∈ tickTable) (dontCare : BitVec 16) :
    r.matches (r.value ||| (dontCare &&& ~~~r.mask)) = true := by
  have hvalue := tickTable_value_masked r hr
  refine (TickRow.matches_iff r _).mpr fun k hk => ?_
  have hbit := congrArg (fun z => BitVec.getLsbD z k) hvalue
  simp only [BitVec.getLsbD_and] at hbit
  simp only [BitVec.getLsbD_or, BitVec.getLsbD_and, BitVec.getLsbD_not]
  cases hm : r.mask.getLsbD k <;> simp_all

/-- A code that the encoder writes from a row decodes to the row's operation (R77). -/
theorem decode_tickCode (P : Params) {mask value dontCare : BitVec 16} {op : Instr} {c : Code}
    (hc : tickCode mask value dontCare = some c) (hr : ⟨mask, value, op⟩ ∈ tickTable) : decode P c = .ok op := by
  cases hc
  exact decodeTick_of_matches hr (TickRow.matches_fill hr dontCare)

/-- The select fields that a word holds (R76). -/
def Select.ofWord (w : BitVec 16) : Select :=
  { rst := w.getLsbD 15, role := w.getLsbD 14, st := w.extractLsb' 12 2, trigger := w.getLsbD 11, txDone := w.getLsbD 10
    windowElapsed := w.getLsbD 9, edge := w.getLsbD 8, seeded := w.getLsbD 7, calibrating := w.getLsbD 6
    belowNoise := w.getLsbD 5, idleExpired := w.getLsbD 4, gateOk := w.getLsbD 3, po := w.extractLsb' 1 2
    colonFound := w.getLsbD 0 }

/-- Every 16-bit word is the select word of its fields (R76). -/
theorem Select.word_ofWord (w : BitVec 16) : (Select.ofWord w).word = w := by
  apply BitVec.eq_of_getLsbD_eq
  intro k hk
  interval_cases k
  · rw [Select.word_colonFound]; rfl
  · rw [Select.word_po0]; simp [Select.ofWord]
  · rw [Select.word_po1]; simp [Select.ofWord]
  · rw [Select.word_gateOk]; rfl
  · rw [Select.word_idleExpired]; rfl
  · rw [Select.word_belowNoise]; rfl
  · rw [Select.word_calibrating]; rfl
  · rw [Select.word_seeded]; rfl
  · rw [Select.word_edge]; rfl
  · rw [Select.word_windowElapsed]; rfl
  · rw [Select.word_txDone]; rfl
  · rw [Select.word_trigger]; rfl
  · rw [Select.word_st0]; simp [Select.ofWord]
  · rw [Select.word_st1]; simp [Select.ofWord]
  · rw [Select.word_role]; rfl
  · rw [Select.word_rst]; rfl

/-- Every select word matches a row: R84's tree gives its fields an operation. -/
theorem exists_row_matches (sel : BitVec 16) : ∃ r ∈ tickTable, r.matches sel = true := by
  have hd := decodeTick_word (Select.ofWord sel)
  rw [Select.word_ofWord] at hd
  unfold decodeTick at hd
  cases hf : tickTable.find? (fun r => r.matches sel) with
  | none => rw [hf] at hd; cases hd
  | some r =>
    have hm := List.find?_some hf
    exact ⟨r, List.mem_of_find?_eq_some hf, hm⟩

/-- A row that matches a select word is the only one (R84). -/
theorem TickRow.eq_of_matches {r q : TickRow} {sel : BitVec 16} (hr : r ∈ tickTable) (hq : q ∈ tickTable)
    (hmr : r.matches sel = true) (hmq : q.matches sel = true) : q = r := by
  by_contra hne
  have hno := TickRow.not_matches_of_conflict hmr (tickTable_rows_conflict r hr q hq (Ne.symm hne))
  exact absurd (hmq.symm.trans hno) nofun

theorem tickTable_nodup : tickTable.Nodup := by decide

/-- Settles O2: a matching row exists by R84's tree, and conflicting fixed bits exclude a second. -/
theorem tickPatternsPartitionTheSelectWords : Obligations.TickPatternsPartitionTheSelectWords := by
  refine ⟨rfl, fun sel => ?_, decodeTick_word⟩
  obtain ⟨r, hr, hm⟩ := exists_row_matches sel
  have hfilter : tickTable.filter (fun q => q.matches sel) = tickTable.filter (· == r) := by
    refine List.filter_congr fun q hq => Bool.eq_iff_iff.mpr ⟨fun hmq => ?_, fun hqr => ?_⟩
    · exact beq_iff_eq.mpr (TickRow.eq_of_matches hr hq hm hmq)
    · rwa [beq_iff_eq.mp hqr]
  calc (tickTable.filter (fun q => q.matches sel)).length
      = tickTable.count r := by rw [hfilter, ← List.countP_eq_length_filter]; rfl
    _ = 1 := List.count_eq_one_of_mem tickTable_nodup hr

/-- Words of 95_test_vectors.md 2.7, written out bit by bit. -/
theorem decodeTick_writtenOut :
    decodeTick 0b1000000000000000#16 = .ok .sysReset ∧ decodeTick 0b0000100000000000#16 = .ok .sTrigger ∧
    decodeTick 0b0010001000000000#16 = .ok .sTimeout ∧ decodeTick 0b0100000111100000#16 = .ok .decCal ∧
    decodeTick 0b0100000110000000#16 = .ok .decBit ∧ decodeTick 0b0100000110011001#16 = .ok .rAccept ∧
    decodeTick 0b0101111111111110#16 = .ok .rCrederr := by decide

/-- Settles O3: the parameters have no part in reading a select word; the other formats are computed at the defaults. -/
theorem writtenOutSelectWordsDecode : Obligations.WrittenOutSelectWordsDecode :=
  ⟨fun _ => decodeTick_writtenOut, by decide, by decide, by decide⟩

/-! ### Wire intervals -/

theorem decodeWire_first (P : Params) (uu : Nat) : decodeWire P true uu = .ok .encStart := rfl

/-- An interval of no unit is below the noise threshold (R80). -/
theorem decodeWire_zero (P : Params) : decodeWire P false 0 = .error .notASymbol := rfl

/-- An interval of the tail's units or more ends the transmission (R72; log 8). -/
theorem decodeWire_stop {P : Params} {uu : Nat} (hpos : uu ≠ 0) (htail : P.tTail / P.tHalf ≤ uu) :
    decodeWire P false uu = .ok .encStop := by
  simp [decodeWire, hpos, htail]

theorem decodeWire_bit0 {P : Params} (htail : 1 < P.tTail / P.tHalf) : decodeWire P false 1 = .ok .encBit0 := by
  have hbelow : ¬ P.tTail / P.tHalf ≤ 1 := by omega
  simp [decodeWire, hbelow]

/-- Two units or more below the tail are a single 1 (R71, R80). -/
theorem decodeWire_bit1 {P : Params} {uu : Nat} (htwo : 2 ≤ uu) (htail : uu < P.tTail / P.tHalf) :
    decodeWire P false uu = .ok .encBit1 := by
  have hpos : uu ≠ 0 := by omega
  have hone : uu ≠ 1 := by omega
  have hbelow : ¬ P.tTail / P.tHalf ≤ uu := by omega
  simp [decodeWire, hpos, hone, hbelow]

/-- Settles O5, branch by branch of `decodeWire`. -/
theorem wireIntervalsDecodeLeniently : Obligations.WireIntervalsDecodeLeniently := by
  intro P uu htail
  refine ⟨decodeWire_first P uu, ?_, ?_, fun htwo hbelow => decodeWire_bit1 htwo hbelow,
    fun hstop => decodeWire_stop (by omega) hstop⟩
  · rintro rfl; exact decodeWire_zero P
  · rintro rfl; exact decodeWire_bit0 (by omega)

/-! ### Every format -/

/-- A payload byte has a code only inside its frame, and that code decodes to it (R73). -/
theorem decode_encodeAt_framePayload {P : Params} {f : Filling} {p : Byte} {c : Code}
    (h : encodeAt P f (.framePayload p) = some c) : decode P c = .ok (.framePayload p) := by
  simp only [encodeAt] at h
  split_ifs at h with hindex
  cases h
  exact decodeByte_payload P p (Nat.le_add_right 5 f.index) (by omega)

/-- Settles O1, format by format: the row of a TICK operation, the units of a WIRE symbol, the position of a BYTE operation. -/
theorem decodeInvertsEncode : Obligations.DecodeInvertsEncode := by
  intro P f i c htail h
  cases i
  case encStart => cases h; exact decodeWire_first P 1
  case encBit0 => cases h; exact decodeWire_bit0 (by omega)
  case encBit1 => cases h; exact decodeWire_bit1 (Nat.le_refl 2) htail
  case encStop => cases h; exact decodeWire_stop (by omega) (Nat.le_refl _)
  case frameSig0 | frameSig1 | frameSig2 | frameSig3 => cases h; exact decodeSig_self _ _
  case frameLen => cases h; rfl
  case framePayload => exact decode_encodeAt_framePayload h
  case frameChecksum => cases h; exact decodeByte_checksum P _ _
  case encByte | encFrame | txDrive | rxfeSample | decIdle | decReset | frmXor | frmBuild | frmSerialize | frmParse | credSplit =>
    cases h
  all_goals exact decode_tickCode P h (by decide)

end Sys2Proof.Machine
end

section
/-! The BYTE operations, and the two operations that need an operand (R73, R153, R157; log 6, log 10, log 15). -/

namespace Sys2Proof.Machine

/-! ### The frame bytes -/

/-- Handing a value to the caller changes no register (log 6). -/
theorem SameMachine.returning (s : State) (r : FuncResult) : SameMachine s (s.returning r) :=
  ⟨rfl, rfl, rfl, rfl, rfl, rfl, rfl, rfl, ⟨rfl, rfl⟩, fun _ _ => rfl, rfl, rfl, rfl⟩

/-- A byte passed to the encoder is returned with its actions, and nothing else changes (R52, R94). -/
theorem State.sendByte_spec (s : State) (b : Byte) :
    ∃ t, Host.Outcome.next (φ := Fault) (ρ := Refusal) (s.sendByte b) = .next t ∧
      t.result = .sent b (byteActions s.params b) ∧ SameMachine s t :=
  ⟨_, rfl, rfl, SameMachine.returning s _⟩

/-- Settles O26: each BYTE operation is `State.sendByte` of its byte. -/
theorem frameByteOperationsSendTheirByte : Obligations.FrameByteOperationsSendTheirByte := fun s =>
  ⟨s.sendByte_spec _, s.sendByte_spec _, s.sendByte_spec _, s.sendByte_spec _, s.sendByte_spec, s.sendByte_spec, s.sendByte_spec⟩

/-! ### The operations that need an operand -/

theorem splitCredentials_err_iff (P : Params) (p : List Byte) : splitCredentials P p = .err ↔ P.colon ∉ p := by
  rw [← colonIndex_none_iff]
  unfold splitCredentials
  cases colonIndex P p <;> simp

/-- `R.ACCEPT` stops exactly where there is no frame to take (R153; log 10). -/
theorem execRAccept_fault_iff (s : State) : (∃ k, s.parsed = .err k) ↔ execRAccept s = .fault .noFrameToAccept := by
  unfold execRAccept
  cases s.parsed <;> simp

/-- `R.APPLY` stops exactly where the payload does not split (R157; log 10). -/
theorem execRApply_fault_iff (s : State) : s.splitPayload = .err ↔ execRApply s = .fault .noColonToApply := by
  unfold execRApply
  cases s.splitPayload <;> simp

theorem idleArm_eq_rAccept {po : BitVec 2} (h : idleArm po = .rAccept) : po = 0b00#2 := by
  unfold idleArm at h
  split_ifs at h with hpo
  exact hpo

/-- R84's tree reaches `R.ACCEPT` only with the parse result `Ok` (R76, R77). -/
theorem Select.choice_eq_rAccept {x : Select} (h : x.choice = .rAccept) : x.po = 0b00#2 := by
  unfold Select.choice Select.listeningChoice Select.senderChoice at h
  split_ifs at h
  exact idleArm_eq_rAccept h

/-- R84's tree reaches `R.APPLY` only with a colon found (R76, R77). -/
theorem Select.choice_eq_rApply {x : Select} (h : x.choice = .rApply) : x.colonFound = true := by
  unfold Select.choice Select.listeningChoice Select.senderChoice idleArm at h
  split_ifs at h
  next _ hcolon => exact hcolon

/-- The operation of a select word is the choice of its state's fields (R84). -/
theorem State.choice_of_decodeTick {s : State} {i : Instr} (h : decodeTick s.sel = .ok i) : s.select.choice = i :=
  Except.ok.inj ((decodeTick_word s.select).symm.trans h)

/-- Settles O49: each stop from the operation's own match, each selection from the leaf's path through R84's tree. -/
theorem operandlessOperationsStopAndAreNeverSelected : Obligations.OperandlessOperationsStopAndAreNeverSelected := by
  intro s
  refine ⟨execRAccept_fault_iff s, ?_, fun h => ?_, fun h => ?_⟩
  · exact (splitCredentials_err_iff _ _).symm.trans (execRApply_fault_iff s)
  · exact (ParseResult.bits_eq_zero_iff s.parsed).mp (Select.choice_eq_rAccept (State.choice_of_decodeTick h))
  · have hsplit := s.colonFound_iff.mp (Select.choice_eq_rApply (State.choice_of_decodeTick h))
    exact not_not.mp fun hno => hsplit ((splitCredentials_err_iff _ _).mpr hno)

end Sys2Proof.Machine
end

section
/-! A transmission as a receiver sees it: the gaps between its edges, and the bits a noise-free decoder reads from them
(R97, R99, R107 to R113, R116). -/

namespace Sys2Proof.Machine

/-! ### The gaps between the edges -/

/-- Segments of the given durations, each at the other level than the one before it (R97). -/
def alternating : Level → List Nat → List Segment
  | _, [] => []
  | lvl, d :: ds => ⟨!lvl, d⟩ :: alternating (!lvl) ds

/-- How long the line holds its level for a bit: one half-period for a 0, two for a 1 (R92, R93). -/
def bitTime (P : Params) (v : Bool) : Nat := P.tHalf * (1 + v.toNat)

/-- A bit opens one segment, which holds the bit's time and whatever the actions after it hold before they toggle (R97). -/
theorem interpret_bit_append (P : Params) (lvl : Level) (v : Bool) (rest : List Action) :
    interpret lvl (bitActions P v ++ rest) =
      (0, ⟨!lvl, bitTime P v + (interpret (!lvl) rest).1⟩ :: (interpret (!lvl) rest).2) := by
  cases v
  · simp [bitActions, bit0Actions, interpret, bitTime]
  · simp [bitActions, bit1Actions, interpret, bitTime, Nat.mul_two, Nat.add_assoc]

/-- The bits of a transmission and its stop symbol are one segment each (R97). -/
theorem interpret_bits_stop (P : Params) (vs : List Bool) : ∀ lvl : Level,
    interpret lvl (vs.flatMap (bitActions P) ++ stopActions P) = (0, alternating lvl (vs.map (bitTime P) ++ [P.tTail])) := by
  induction vs with
  | nil => intro lvl; rfl
  | cons v vs ih =>
    intro lvl
    rw [List.flatMap_cons, List.append_assoc, interpret_bit_append, ih]
    rfl

theorem frameActions_eq (P : Params) (bytes : List Byte) :
    frameActions P bytes = bitActions P false ++ ((wireBits bytes).flatMap (bitActions P) ++ stopActions P) := by
  unfold frameActions wireBits
  rw [List.flatMap_assoc, List.append_assoc]
  rfl

/-- The waveform of a transmission: the start pulse, the bits, the tail, at alternating levels from the idle level on (R97). -/
theorem segments_eq_alternating (P : Params) (bytes : List Byte) :
    segments P bytes = alternating P.idleLevel (P.tHalf :: (wireBits bytes).map (bitTime P) ++ [P.tTail]) := by
  unfold segments segmentsOf
  rw [frameActions_eq, interpret_bit_append, interpret_bits_stop]
  simp [alternating, bitTime]

/-- The edges of a line that is at level `lvl` since instant `t`, the gap before each given. -/
def edgesAfter (P : Params) : Nat → Level → List Nat → List (Nat × Level)
  | _, _, [] => []
  | t, lvl, d :: ds => (P.stamp (t + d), !lvl) :: edgesAfter P (t + d) (!lvl) ds

/-- The edges of alternating segments: the first at the start, the others after the duration of the segment before; the last
duration ends in no edge. -/
theorem edgesFrom_alternating (P : Params) (last : Nat) (ds : List Nat) : ∀ (t : Nat) (lvl : Level),
    edgesFrom P t (alternating lvl (ds ++ [last])) = (P.stamp t, !lvl) :: edgesAfter P t (!lvl) ds := by
  induction ds with
  | nil => intro t lvl; rfl
  | cons d ds ih =>
    intro t lvl
    simp only [List.cons_append, alternating, edgesFrom, edgesAfter]
    rw [ih]

/-- The edges of a transmission: the seed, the end of the start pulse, and one edge at the end of each bit (R99). -/
theorem edgesFrom_segments (P : Params) (t0 : Nat) (bytes : List Byte) :
    edgesFrom P t0 (segments P bytes) =
      (P.stamp t0, !P.idleLevel) :: edgesAfter P t0 (!P.idleLevel) (P.tHalf :: (wireBits bytes).map (bitTime P)) := by
  rw [segments_eq_alternating, edgesFrom_alternating]

/-! ### The timing that the premises of R9 give -/

/-- What a noise-free decoder needs of its parameters (R9, log 5): the learned period lies above the noise threshold and tells one
half-period from two, and neither is mistaken for noise or for the end of the frame. -/
structure TimingOk (P : Params) : Prop where
  period : scale P P.tHalf = P.scaledHalf
  period_le : P.scaledHalf ≤ P.tHalf
  noise_lt : P.tNoise < P.scaledHalf
  short : 2 * P.tHalf < 3 * P.scaledHalf
  long : 3 * P.scaledHalf ≤ 2 * (2 * P.tHalf)
  idle : 2 * P.tHalf < P.tIdle
  idle_lt : P.tIdle < 2 ^ P.tsW

theorem Params.timingOk {P : Params} (hpremises : P.premises = true) (hfits : P.fits = true) : TimingOk P := by
  simp only [Params.premises, Params.fits, Bool.and_eq_true, decide_eq_true_eq] at hpremises hfits
  obtain ⟨⟨⟨⟨⟨⟨hnoise, _⟩, hlong⟩, hshort⟩, hidle⟩, htail⟩, _⟩ := hpremises
  obtain ⟨⟨⟨⟨_, hmargin⟩, htailFits⟩, _⟩, _⟩ := hfits
  exact
    { period := scale_eq P P.tHalf hmargin (by omega)
      period_le := Nat.div_le_of_le_mul (Nat.mul_le_mul_right _ (Nat.le_of_lt hmargin))
      noise_lt := hnoise
      short := hshort
      long := hlong
      idle := hidle
      idle_lt := by omega }

theorem bitTime_bounds (P : Params) (v : Bool) : P.tHalf ≤ bitTime P v ∧ bitTime P v ≤ 2 * P.tHalf := by
  cases v
  · simp only [bitTime, Bool.toNat_false]; omega
  · simp only [bitTime, Bool.toNat_true]; omega

/-- No bit lasts as long as the idle timeout, so no time of it wraps (R9). -/
theorem TimingOk.bitTime_lt {P : Params} (h : TimingOk P) (v : Bool) : bitTime P v < P.tIdle :=
  Nat.lt_of_le_of_lt (bitTime_bounds P v).2 h.idle

/-- The learned period reads each bit's time as the bit (R111). -/
theorem TimingOk.classify_bitTime {P : Params} (h : TimingOk P) (v : Bool) : classify (bitTime P v) P.scaledHalf = v := by
  have hshort := h.short
  have hlong := h.long
  rw [Bool.eq_iff_iff, classify_iff]
  cases v
  · simp only [bitTime, Bool.toNat_false, Bool.false_eq_true, iff_false]; omega
  · simp only [bitTime, Bool.toNat_true, iff_true]; omega

/-- The learned period is the least update: no bit's time is below it (R112). -/
theorem TimingOk.minUpdate_bitTime {P : Params} (h : TimingOk P) (v : Bool) :
    minUpdate P.scaledHalf (bitTime P v) = P.scaledHalf := by
  rw [minUpdate_eq_min]
  exact Nat.min_eq_left (h.period_le.trans (bitTime_bounds P v).1)

/-! ### The decoder's answer to an edge -/

theorem decEdge_unseeded (P : Params) {x : SessionValue} (t : Nat) (lvl : Level) (hseed : x.regs.seeded = false) :
    decEdge P x t lvl = { x with regs := x.regs.seedWith t lvl } := by
  simp [decEdge, hseed]

theorem decEdge_calibrating (P : Params) {x : SessionValue} {t d : Nat} (lvl : Level) (hd : elapsed P t x.regs.lastEdgeTime = d)
    (hseed : x.regs.seeded = true) (hcal : x.regs.calibrating = true) :
    decEdge P x t lvl = { x with regs := x.regs.calibrateWith P d t lvl } := by
  simp [decEdge, hd, hseed, hcal]

theorem decEdge_noise (P : Params) {x : SessionValue} {t : Nat} (lvl : Level) (hseed : x.regs.seeded = true)
    (hcal : x.regs.calibrating = false) (hnoise : elapsed P t x.regs.lastEdgeTime < P.tNoise) : decEdge P x t lvl = x := by
  simp [decEdge, hseed, hcal, hnoise]

theorem decEdge_accepted (P : Params) {x : SessionValue} {t d : Nat} (lvl : Level) (hd : elapsed P t x.regs.lastEdgeTime = d)
    (hseed : x.regs.seeded = true) (hcal : x.regs.calibrating = false) (hnoise : ¬ d < P.tNoise) :
    decEdge P x t lvl =
      { regs := x.regs.bitWith P d t lvl, cells := x.regs.accumulateCells P x.cells (x.regs.bitOf d) } := by
  simp [decEdge, hd, hseed, hcal, hnoise]

/-! ### The bits of a transmission -/

/-- A session whose last edge is the given one (R19, R20). -/
def Session.atEdge (x : Session) (t : Nat) (lvl : Level) : Session := { x with lastEdgeTime := t, lastLevel := lvl }

/-- A session that has learned the period of a noise-free start pulse (R99, R108). -/
structure Calibrated (P : Params) (x : Session) : Prop where
  seeded : x.seeded = true
  calibrating : x.calibrating = false
  period : x.nominalPeriod = P.scaledHalf

theorem Session.accumulate_nominalPeriod (P : Params) (x : Session) (v : Bool) :
    (x.accumulate P v).nominalPeriod = x.nominalPeriod := by
  unfold Session.accumulate; split <;> rfl

theorem Calibrated.assembleBit {P : Params} {x : Session} (h : Calibrated P x) (cs : List Host.Cell) (v : Bool) :
    Calibrated P (assembleBit P (x, cs) v).1 :=
  ⟨(x.accumulate_seeded P v).trans h.seeded, (x.accumulate_calibrating P v).trans h.calibrating,
    (x.accumulate_nominalPeriod P v).trans h.period⟩

/-- The byte assembler neither reads nor writes the last edge (R113). -/
theorem Session.accumulate_atEdge (P : Params) (x : Session) (t : Nat) (lvl : Level) (v : Bool) :
    (x.atEdge t lvl).accumulate P v = (x.accumulate P v).atEdge t lvl := by
  unfold Session.accumulate Session.atEdge
  dsimp only
  split <;> rfl

/-- An accepted edge that leaves the period as it is only assembles a bit (R110). -/
theorem Session.bitWith_of_minUpdate (P : Params) {x : Session} {d : Nat} (t : Nat) (lvl : Level)
    (h : minUpdate x.nominalPeriod d = x.nominalPeriod) :
    x.bitWith P d t lvl = (x.accumulate P (x.bitOf d)).atEdge t lvl := by
  have hperiod := x.accumulate_nominalPeriod P (x.bitOf d)
  unfold Session.bitWith
  rw [h, ← hperiod]
  rfl

/-- An edge at the end of a bit's time gives the byte assembler that bit, and leaves the period as learned (R110, R111). -/
theorem decEdge_bitTime {P : Params} (hP : TimingOk P) {x : Session} (hx : Calibrated P x) (cs : List Host.Cell) (v : Bool)
    (t : Nat) (lvl lvl' : Level) :
    decEdge P { regs := x.atEdge (P.stamp t) lvl, cells := cs } (P.stamp (t + bitTime P v)) lvl' =
      { regs := (assembleBit P (x, cs) v).1.atEdge (P.stamp (t + bitTime P v)) lvl', cells := (assembleBit P (x, cs) v).2 } := by
  obtain ⟨hlow, _⟩ := bitTime_bounds P v
  have hdelta : elapsed P (P.stamp (t + bitTime P v)) (P.stamp t) = bitTime P v :=
    elapsed_stamp_add P t _ ((hP.bitTime_lt v).trans hP.idle_lt)
  have hnoise : ¬ bitTime P v < P.tNoise := by
    have hnoise := hP.noise_lt
    have hperiod := hP.period_le
    omega
  have hperiod : (x.atEdge (P.stamp t) lvl).nominalPeriod = P.scaledHalf := hx.period
  have hmin := hP.minUpdate_bitTime v
  have hbit : (x.atEdge (P.stamp t) lvl).bitOf (bitTime P v) = v := by
    unfold Session.bitOf
    rw [hperiod, hmin, hP.classify_bitTime]
  rw [decEdge_accepted P lvl' hdelta hx.seeded hx.calibrating hnoise]
  dsimp only
  rw [Session.bitWith_of_minUpdate P _ _ (by rw [hperiod, hmin]), hbit, Session.accumulate_atEdge]
  rfl

/-- The edges of bits feed the byte assembler exactly those bits (R99). -/
theorem decEdges_bits {P : Params} (hP : TimingOk P) (vs : List Bool) :
    ∀ (x : Session) (cs : List Host.Cell) (t : Nat) (lvl : Level), Calibrated P x →
    decEdges P { regs := x.atEdge (P.stamp t) lvl, cells := cs } (edgesAfter P t lvl (vs.map (bitTime P))) =
      { regs := (vs.foldl (assembleBit P) (x, cs)).1.atEdge (P.stamp (t + (vs.map (bitTime P)).sum)) (vs.length.bodd ^^ lvl)
        cells := (vs.foldl (assembleBit P) (x, cs)).2 } := by
  induction vs with
  | nil => intro x cs t lvl _; simp [edgesAfter, decEdges]
  | cons v vs ih =>
    intro x cs t lvl hx
    simp only [List.map_cons, edgesAfter, decEdges]
    rw [decEdge_bitTime hP hx, ih _ _ _ _ (hx.assembleBit cs v)]
    simp [Nat.add_assoc]

/-- From a byte boundary the bits of a byte sequence write its bytes, one cell each, in order (R51, R66, R113). -/
theorem foldl_assembleBit_wireBits (P : Params) (bytes : List Byte) : ∀ (x : Session) (cs : List Host.Cell),
    x.bitCount % 8 = 0 → x.shift = 0#8 → x.bitCount + 8 * bytes.length ≤ 8 * P.rawCap →
    (wireBits bytes).foldl (assembleBit P) (x, cs) =
      ({ x with bitCount := x.bitCount + 8 * bytes.length }, Cells.writeBlock cs (x.bitCount / 8) bytes) := by
  induction bytes with
  | nil => intro x cs _ _ _; rfl
  | cons b rest ih =>
    intro x cs hbound hshift hroom
    rw [List.length_cons] at hroom
    rw [wireBits_cons, List.foldl_append, foldl_assembleBit_bitsOf P x cs b hbound (by omega),
      ih _ _ (by dsimp only; omega) rfl (by dsimp only; omega)]
    dsimp only
    rw [Nat.add_div_right _ (by decide), ← hshift, List.length_cons, Nat.mul_succ, Nat.add_right_comm, Nat.add_assoc]
    rfl

theorem wireBits_length (bytes : List Byte) : (wireBits bytes).length = 8 * bytes.length := by
  induction bytes with
  | nil => rfl
  | cons b rest ih =>
    rw [wireBits_cons, List.length_append, ih, List.length_cons]
    show 8 + _ = _
    omega

/-- An empty session that has seen a start pulse, but for the pulse's last edge (R107, R108). -/
def learnedSession (P : Params) : Session :=
  { Session.empty P with seeded := true, calibrating := false, nominalPeriod := P.scaledHalf }

/-- The two edges of a start pulse seed an empty session and calibrate it to `Scale(T_HALF)` (R99, R107, R108). -/
theorem decEdge_startPulse {P : Params} (hP : TimingOk P) (t0 : Nat) (lvl lvl' : Level) (cells : List Host.Cell) :
    decEdge P (decEdge P { regs := Session.empty P, cells := cells } (P.stamp t0) lvl) (P.stamp (t0 + P.tHalf)) lvl' =
      { regs := (learnedSession P).atEdge (P.stamp (t0 + P.tHalf)) lvl', cells := cells } := by
  have hhalf : P.tHalf < 2 ^ P.tsW := (bitTime_bounds P false).1.trans_lt ((hP.bitTime_lt false).trans hP.idle_lt)
  have hdelta : elapsed P (P.stamp (t0 + P.tHalf)) (P.stamp t0) = P.tHalf := elapsed_stamp_add P t0 _ hhalf
  rw [decEdge_unseeded P _ lvl rfl, decEdge_calibrating P lvl' hdelta rfl rfl]
  unfold Session.calibrateWith
  rw [hP.period]
  rfl

/-- The session registers after the edges of a noise-free transmission from instant `t0` (R99). -/
def receivedSession (P : Params) (t0 : Nat) (bytes : List Byte) : Session :=
  { seeded := true, calibrating := false, nominalPeriod := P.scaledHalf
    lastEdgeTime := P.stamp (t0 + P.tHalf + ((wireBits bytes).map (bitTime P)).sum)
    lastLevel := P.idleLevel, bitCount := 8 * bytes.length, shift := 0#8 }

/-- The noise-free receive view (R99): the edges of a transmission leave its bytes in the buffer and the period learned. -/
theorem decEdges_transmission {P : Params} (hP : TimingOk P) (t0 : Nat) {bytes : List Byte} (hroom : bytes.length ≤ P.rawCap)
    (cells : List Host.Cell) :
    decEdges P { regs := Session.empty P, cells := cells } (edgesFrom P t0 (segments P bytes)) =
      { regs := receivedSession P t0 bytes, cells := Cells.writeBlock cells 0 bytes } := by
  have hcount : (learnedSession P).bitCount + 8 * bytes.length ≤ 8 * P.rawCap := by
    show 0 + _ ≤ _
    omega
  have hassembled := foldl_assembleBit_wireBits P bytes (learnedSession P) cells rfl rfl hcount
  rw [edgesFrom_segments]
  simp only [edgesAfter, decEdges, Bool.not_not]
  rw [decEdge_startPulse hP, decEdges_bits hP _ _ _ _ _ ⟨rfl, rfl, rfl⟩, hassembled, wireBits_length]
  simp [receivedSession, learnedSession, Session.atEdge, Session.empty]

/-- The bytes closed by the edges of a noise-free transmission are the transmitted ones (R99). -/
theorem receivedSession_bytes (P : Params) (t0 : Nat) (bytes : List Byte) (cells : List Host.Cell) :
    ({ regs := receivedSession P t0 bytes, cells := Cells.writeBlock cells 0 bytes } : SessionValue).bytes = bytes := by
  have hcount : (receivedSession P t0 bytes).byteCount = bytes.length := Nat.mul_div_cancel_left _ (by decide)
  unfold SessionValue.bytes
  rw [hcount]
  exact Cells.memRead_writeBlock _ _ _ _

end Sys2Proof.Machine
end

section
/-! The round trip of the framer: a serialised frame parses to itself (R128, R129, R132). -/

namespace Sys2Proof.Machine

theorem declaredLength_serialize (P : Params) (f : Frame) : declaredLength (serialize P f) = f.length.toNat := by
  rw [serialize_eq]
  rfl

/-- The fields that a well-formed frame's bytes describe are the frame's own (R58, R125). -/
theorem frameIn_serialize (P : Params) {f : Frame} (hwf : f.wf = true) : frameIn (serialize P f) = f := by
  have hlen := f.wf_iff.mp hwf
  have hpayload : slice (serialize P f) 5 f.length.toNat = f.payload := by
    rw [serialize_eq, ← hlen]
    exact List.take_left
  have hchecksum : (serialize P f).getD (5 + f.length.toNat) 0#8 = f.checksum := by
    rw [List.getD_eq_getElem?_getD, ← hlen, serialize_getElem?_checksum]
    rfl
  have hlength : (serialize P f).getD 4 0#8 = f.length := by
    rw [serialize_eq]
    rfl
  unfold frameIn
  rw [declaredLength_serialize, hpayload, hchecksum, hlength]

/-- A valid frame survives serialising and parsing (R132). -/
theorem parseFrame_serialize (P : Params) {f : Frame} (h : frameValid f = true) : parseFrame P (serialize P f) = .ok f := by
  obtain ⟨hwf, hsum⟩ : f.wf = true ∧ f.checksum = xorBytes f.payload := by simpa [frameValid] using h
  rw [parseFrame_ok_iff, frameIn_serialize P hwf, declaredLength_serialize, serialize_length, f.wf_iff.mp hwf]
  refine ⟨?_, Nat.le_refl _, hsum.symm, rfl⟩
  rw [serialize_eq]
  rfl

/-- What `FRM.BUILD` makes of a payload that a length byte can count is a valid frame (R127). -/
theorem buildFrame_valid {payload : List Byte} (h : payload.length ≤ 255) : frameValid (buildFrame payload) = true := by
  have hlen := byteLen_toNat (n := payload.length) (by omega)
  simp [frameValid, Frame.wf, buildFrame, hlen]

end Sys2Proof.Machine
end

section
/-! A listening receiver's ticks: an edge does `DecEdge`, the idle timeout of a session that holds a frame takes it
(R105, R114, R116, R149, R162). -/

namespace Sys2Proof.Machine

/-! ### One tick -/

/-- A listening Receiver's tick without reset performs the operation of R84's listening branch, and samples the line (R105, R162). -/
theorem tick_listening {s v : State} {p : Ports} (hrole : s.role = .receiver) (hst : s.st = rListening) (hrst : p.rst = false)
    (he : exec (s.beginTick p).select.listeningChoice (s.beginTick p) = .next v) :
    tick s p = .next { v with frontEnd := (s.beginTick p).frontEndAfter } := by
  have hfetch : ({ s with stimuli := .tick p :: s.stimuli } : State).fetch = (s.beginTick p, .tick (s.beginTick p).sel) :=
    State.fetch_tick _ p s.stimuli rfl
  have hdecode := decodeTick_listening (s.beginTick p).select hrst (congrArg Role.bit hrole) hst
  unfold tick
  rw [step_of_exec _ _ v (by rw [hfetch]; exact hdecode) (by rw [hfetch]; exact he), hfetch]
  simp [closeTick, State.samplesLine, hrst, hrole]

/-- The state with the decoder's session value replaced. -/
def State.withSessionValue (s : State) (v : SessionValue) : State :=
  { s with session := v.regs, mem := { s.mem with rawBytes := v.cells } }

@[simp] theorem State.sessionValue_withSessionValue (s : State) (v : SessionValue) : (s.withSessionValue v).sessionValue = v := rfl

/-- The operation of an edge without an idle-timeout event does `DecEdge` to the session value and nothing else (R107 to R110, R116). -/
theorem exec_listeningChoice_edge {s : State} (hedge : s.edge = true) (hidle : s.session.seeded = false ∨ s.idleExpired = false) :
    exec s.select.listeningChoice s =
      .next (s.withSessionValue (decEdge s.params s.sessionValue s.now s.ports.rxLevel)) := by
  have hedge' : s.select.edge = true := hedge
  cases hseed : s.session.seeded with
  | false =>
    have hchoice : s.select.listeningChoice = .decSeed := by
      simp [Select.listeningChoice, hedge', show s.select.seeded = false from hseed]
    rw [hchoice, decEdge_unseeded _ _ _ hseed]
    rfl
  | true =>
    have hseed' : s.select.seeded = true := hseed
    have hidle' : s.select.idleExpired = false := hidle.resolve_left (by simp [hseed])
    cases hcal : s.session.calibrating with
    | true =>
      have hchoice : s.select.listeningChoice = .decCal := by
        simp [Select.listeningChoice, hedge', hseed', hidle', show s.select.calibrating = true from hcal]
      rw [hchoice, decEdge_calibrating _ _ rfl hseed hcal]
      rfl
    | false =>
      have hcal' : s.select.calibrating = false := hcal
      by_cases hnoise : s.delta < s.params.tNoise
      · have hchoice : s.select.listeningChoice = .decReject := by
          simp [Select.listeningChoice, hedge', hseed', hidle', hcal', show s.select.belowNoise = true from decide_eq_true hnoise]
        rw [hchoice, decEdge_noise _ (x := s.sessionValue) _ hseed hcal hnoise]
        rfl
      · have hchoice : s.select.listeningChoice = .decBit := by
          simp [Select.listeningChoice, hedge', hseed', hidle', hcal', show s.select.belowNoise = false from decide_eq_false hnoise]
        rw [hchoice, decEdge_accepted _ (x := s.sessionValue) _ rfl hseed hcal hnoise]
        rfl

/-- The operation of an idle timeout past the gate takes the frame that the closed bytes parse to (R114, R153). -/
theorem exec_listeningChoice_accept {s : State} {f : Frame} (hseed : s.session.seeded = true) (hidle : s.idleExpired = true)
    (hgate : s.session.gateOk s.params = true) (hf : s.parsed = .ok f) :
    exec s.select.listeningChoice s = .next (s.acceptFrame f) := by
  have hpo : s.select.po = 0b00#2 := (ParseResult.bits_eq_zero_iff s.parsed).mpr ⟨f, hf⟩
  have hchoice : s.select.listeningChoice = .rAccept := by
    simp [Select.listeningChoice, idleArm, show s.select.seeded = true from hseed, show s.select.idleExpired = true from hidle,
      show s.select.gateOk = true from hgate, hpo]
  rw [hchoice]
  show execRAccept s = _
  unfold execRAccept
  rw [hf]

/-! ### Ticks of a script -/

/-- A receiver with parameters `P` that listens, with nothing else placed for it to read: its session value, the level of its last
sample and the time of the line's last change. -/
structure Listens (P : Params) (x : SessionValue) (lvl : Level) (change : Nat) (s : State) : Prop where
  params : s.params = P
  role : s.role = .receiver
  st : s.st = rListening
  sessionValue : s.sessionValue = x
  stimuli : s.stimuli = []
  prevSample : s.frontEnd.prevSample = lvl
  lastChangeTime : s.frontEnd.lastChangeTime = change

/-- A tick that finds the line changed, before any idle timeout, does `DecEdge` to a listening receiver (R105, R116). -/
theorem Listens.tick_edge {P : Params} {x : SessionValue} {lvl : Level} {change : Nat} {s : State} (h : Listens P x lvl change s)
    {p : Ports} (hrst : p.rst = false) (hlvl : p.rxLevel = !lvl)
    (hidle : x.regs.seeded = false ∨ elapsed P (P.stamp p.now) change < P.tIdle) :
    ∃ u, tick s p = .next u ∧ Listens P (decEdge P x (P.stamp p.now) p.rxLevel) p.rxLevel (P.stamp p.now) u := by
  obtain ⟨rfl, hrole, hst, rfl, hstimuli, rfl, rfl⟩ := h
  have hedge : (s.beginTick p).edge = true := by simp [State.edge, hlvl]
  have hexec := exec_listeningChoice_edge hedge (hidle.imp id fun hearly => decide_eq_false (Nat.not_le_of_lt hearly))
  refine ⟨_, tick_listening hrole hst hrst hexec, rfl, hrole, hst, rfl, hstimuli, rfl, ?_⟩
  simp [State.frontEndAfter, hedge, State.now]

/-- A tick at the idle timeout of a session that holds a frame ends with that frame accepted (R114, R153). -/
theorem Listens.tick_accept {P : Params} {x : SessionValue} {lvl : Level} {change : Nat} {s : State} (h : Listens P x lvl change s)
    {p : Ports} {f : Frame} (hrst : p.rst = false) (hseed : x.regs.seeded = true)
    (hidle : P.tIdle ≤ elapsed P (P.stamp p.now) change) (hgate : x.regs.gateOk P = true) (hf : parseFrame P x.bytes = .ok f) :
    ∃ u, tick s p = .next u ∧ u.st = rApplying ∧ u.frame = { valid := true, len := f.length, checksum := f.checksum } ∧
      u.framePayloadBytes = f.payload ∧ u.outcome = .frameOk ∧ u.outcomeStrobe = true ∧ u.session = Session.empty P := by
  obtain ⟨rfl, hrole, hst, rfl, hstimuli, rfl, rfl⟩ := h
  have hexec := exec_listeningChoice_accept (s := s.beginTick p) hseed (decide_eq_true hidle) hgate hf
  refine ⟨_, tick_listening hrole hst hrst hexec, rfl, rfl, ?_, rfl, rfl, rfl⟩
  show (s.mem.copyIn .framePayload f.payload).memRead .framePayload 0 f.length.toNat = f.payload
  rw [← parseFrame_payload_length hf]
  exact Memory.memRead_copyIn _ _ _

/-! ### A whole transmission -/

theorem ticks_cons {s u : State} {p : Ports} (h : tick s p = .next u) (rest : List Ports) : ticks s (p :: rest) = ticks u rest := by
  rw [ticks, h]

theorem ticks_append (ps qs : List Ports) : ∀ {s u : State}, ticks s ps = .next u → ticks s (ps ++ qs) = ticks u qs := by
  induction ps with
  | nil => intro s u h; cases h; rfl
  | cons p ps ih =>
    intro s u h
    rw [ticks] at h
    cases hp : tick s p with
    | next v =>
      rw [hp] at h
      rw [List.cons_append, ticks_cons hp]
      exact ih h
    | fault e => rw [hp] at h; cases h
    | refused e => rw [hp] at h; cases h

/-- A listening receiver whose front end stands where the script does: at the level and the time of the script's last edge line (R83). -/
def FollowsScript (P : Params) (x : SessionValue) (c : ScriptContext) (s : State) : Prop := Listens P x c.level c.lastEdge s

/-- A value put into `TS_W` bits stays as it is when that is done again (R6). -/
theorem stamp_stamp (P : Params) (x : Nat) : P.stamp (P.stamp x) = P.stamp x := P.stamp_of_lt _ (P.stamp_lt x)

/-- An `EDGE` line does `DecEdge` (R83, R116). -/
theorem Listens.edgeLine {P : Params} {x : SessionValue} {lvl : Level} {change : Nat} {s : State} (h : Listens P x lvl change s)
    (c : ScriptContext) (t : Nat) (hidle : x.regs.seeded = false ∨ elapsed P (P.stamp t) change < P.tIdle) :
    ∃ u, tick s (c.ports (P.stamp t) (!lvl) false) = .next u ∧
      FollowsScript P (decEdge P x (P.stamp t) (!lvl)) (c.edgeTick (P.stamp t, !lvl)).1 u := by
  have hstamp := stamp_stamp P t
  obtain ⟨u, htick, hu⟩ := h.tick_edge (p := c.ports (P.stamp t) (!lvl) false) rfl rfl (hidle.imp id (hstamp.symm ▸ ·))
  refine ⟨u, htick, ?_⟩
  rwa [show P.stamp (c.ports (P.stamp t) (!lvl) false).now = P.stamp t from hstamp] at hu

/-- Edges with gaps below the idle timeout feed a listening receiver's session value one after another (R83, R116). -/
theorem FollowsScript.edges {P : Params} (hP : P.tIdle < 2 ^ P.tsW) (gaps : List Nat) (hgaps : ∀ d ∈ gaps, d < P.tIdle) :
    ∀ {c : ScriptContext} {x : SessionValue} {s : State} {t : Nat}, FollowsScript P x c s → c.lastEdge = P.stamp t →
    ∃ u, ticks s (c.edgeTicks (edgesAfter P t c.level gaps)).2 = .next u ∧
      FollowsScript P (decEdges P x (edgesAfter P t c.level gaps)) (c.edgeTicks (edgesAfter P t c.level gaps)).1 u ∧
      (c.edgeTicks (edgesAfter P t c.level gaps)).1.lastEdge = P.stamp (t + gaps.sum) := by
  induction gaps with
  | nil => intro c x s t h ht; exact ⟨s, rfl, h, ht⟩
  | cons d ds ih =>
    intro c x s t h ht
    obtain ⟨hd, hds⟩ := List.forall_mem_cons.mp hgaps
    have hearly : elapsed P (P.stamp (t + d)) c.lastEdge < P.tIdle := by
      rw [ht, elapsed_stamp_add P t d (hd.trans hP)]
      exact hd
    obtain ⟨v, htick, hv⟩ := Listens.edgeLine h c (t + d) (.inr hearly)
    obtain ⟨u, hticks, hu, hlast⟩ := ih hds hv (t := t + d) rfl
    refine ⟨u, (ticks_cons htick _).trans hticks, hu, ?_⟩
    rw [List.sum_cons, ← Nat.add_assoc]
    exact hlast

/-- The edges of a transmission, from a line at rest and an empty session: the receiver holds its bytes, and the script stands at the
transmission's last edge (R83, R99). -/
theorem Listens.wave {P : Params} (hP : TimingOk P) {cells : List Host.Cell} {change : Nat} {s : State}
    (h : Listens P { regs := Session.empty P, cells := cells } P.idleLevel change s) (c : ScriptContext) (t0 : Nat)
    {bytes : List Byte} (hroom : bytes.length ≤ P.rawCap) :
    ∃ u t, ticks s (c.waveTicks P t0 bytes).2 = .next u ∧
      FollowsScript P { regs := receivedSession P t0 bytes, cells := Cells.writeBlock cells 0 bytes } (c.waveTicks P t0 bytes).1 u ∧
      (c.waveTicks P t0 bytes).1.lastEdge = P.stamp t := by
  have hgaps : ∀ d ∈ P.tHalf :: (wireBits bytes).map (bitTime P), d < P.tIdle := by
    refine List.forall_mem_cons.mpr ⟨(bitTime_bounds P false).1.trans_lt (hP.bitTime_lt false), fun d hd => ?_⟩
    obtain ⟨v, _, rfl⟩ := List.mem_map.mp hd
    exact hP.bitTime_lt v
  obtain ⟨v, htick, hv⟩ := Listens.edgeLine h c t0 (.inl rfl)
  obtain ⟨u, hticks, hu, hlast⟩ := FollowsScript.edges hP.idle_lt _ hgaps hv (t := t0) rfl
  unfold ScriptContext.waveTicks
  rw [← decEdges_transmission hP t0 hroom cells, edgesFrom_segments]
  exact ⟨u, _, (ticks_cons htick _).trans hticks, hu, hlast⟩

/-- Enough bytes and the period of a noise-free start pulse pass the gate (R114). -/
theorem receivedSession_gateOk {P : Params} (hP : TimingOk P) (t0 : Nat) {bytes : List Byte} (hlen : P.minBytes ≤ bytes.length) :
    (receivedSession P t0 bytes).gateOk P = true := by
  have hcount : (receivedSession P t0 bytes).byteCount = bytes.length := Nat.mul_div_cancel_left _ (by decide)
  have hnoise : P.tNoise < (receivedSession P t0 bytes).nominalPeriod := hP.noise_lt
  simp [Session.gateOk, hcount, hlen, hnoise]

/-- The `IDLEOUT` line after the edges of a serialised frame takes the frame (R83, R114, R153). -/
theorem FollowsScript.idleout {P : Params} (hP : TimingOk P) {t0 t : Nat} {f : Frame} (hf : frameValid f = true)
    (hmin : P.minBytes ≤ 6) {cells : List Host.Cell} {c : ScriptContext} {s : State}
    (h : FollowsScript P
      { regs := receivedSession P t0 (serialize P f), cells := Cells.writeBlock cells 0 (serialize P f) } c s)
    (ht : c.lastEdge = P.stamp t) :
    ∃ u, ticks s (c.idleTicks P).2 = .next u ∧ u.st = rApplying ∧
      u.frame = { valid := true, len := f.length, checksum := f.checksum } ∧
      u.framePayloadBytes = f.payload ∧ u.outcome = .frameOk ∧ u.outcomeStrobe = true ∧ u.session = Session.empty P := by
  have hquiet : elapsed P (P.stamp (P.stamp (c.lastEdge + P.tIdle))) c.lastEdge = P.tIdle := by
    have hlast : P.stamp c.lastEdge = c.lastEdge := by rw [ht, stamp_stamp]
    have h := elapsed_stamp_add P c.lastEdge P.tIdle hP.idle_lt
    rwa [hlast, ← stamp_stamp] at h
  have hgate := receivedSession_gateOk hP t0 (bytes := serialize P f) (by rw [serialize_length]; omega)
  have hparse := parseFrame_serialize P hf
  rw [← receivedSession_bytes P t0 (serialize P f) cells] at hparse
  obtain ⟨u, htick, hu⟩ := Listens.tick_accept h (p := c.ports (P.stamp (c.lastEdge + P.tIdle)) c.level false) rfl rfl
    (Nat.le_of_eq hquiet.symm) hgate hparse
  exact ⟨u, ticks_cons htick [], hu⟩

/-- Settles O58: the edges of the waveform fill the session (`Listens.wave`), the idle timeout takes the frame
(`FollowsScript.idleout`). -/
theorem sentPayloadIsReceived : Obligations.SentPayloadIsReceived := by
  intro s c t0 payload hlen hpremises hfits hrole hst hsession hprev hstimuli
  have hP := Params.timingOk hpremises hfits
  obtain ⟨_, hraw⟩ := Params.capacities_of_fits hfits
  have hmin : s.params.minBytes ≤ 6 := by
    simp only [Params.fits, Bool.and_eq_true, decide_eq_true_eq] at hfits
    obtain ⟨_, hmin⟩ := hfits
    exact hmin
  have hroom : (serialize s.params (buildFrame payload)).length ≤ s.params.rawCap := by
    rw [serialize_length]
    show payload.length + 6 ≤ _
    omega
  have hlisten : Listens s.params { regs := Session.empty s.params, cells := s.mem.rawBytes } s.params.idleLevel
      s.frontEnd.lastChangeTime s := ⟨rfl, hrole, hst, by rw [← hsession]; rfl, hstimuli, hprev, rfl⟩
  obtain ⟨v, t, hwave, hv, hlast⟩ := hlisten.wave hP c t0 hroom
  obtain ⟨u, hidle, happly, hframe, hpayload, houtcome, hstrobe, hempty⟩ :=
    FollowsScript.idleout hP (buildFrame_valid hlen) hmin hv hlast
  refine ⟨u, (ticks_append _ _ hwave).trans hidle, happly, ?_, ?_, ?_, hpayload, houtcome, hstrobe, hempty⟩
  · rw [hframe]
  · rw [hframe]
    exact byteLen_toNat (by omega)
  · rw [hframe]
    rfl

end Sys2Proof.Machine
end

section
/-! The model's placement of a select word (R76; log 11): at the default parameters the placed tick computes each field of the word. -/

namespace Sys2Proof.Machine

/-- The state in which the placed tick of a word is performed (R162; log 11). -/
def State.placedTick (s : State) (w : BitVec 16) : State :=
  { s.placeTick w with ports := placedPorts s w, stimuli := s.stimuli, outcomeStrobe := false }

/-- Placing a 16-bit word and fetching gives the select word of the placed tick. -/
theorem State.fetch_withFetchWord (s : State) (w : BitVec 16) :
    (s.withFetchWord 16 w.toNat).fetch.2 = .tick (s.placedTick w).sel := by
  have hcode : tableCode s.params 16 w.toNat = some (.tick w) := by simp [tableCode]
  unfold State.withFetchWord
  rw [hcode]
  exact congrArg Prod.snd ((s.placeTick w).fetch_tick (placedPorts s w) s.stimuli rfl)

/-! ### Times -/

/-- The instant `n` microseconds ago lies `n` microseconds back, wherever the counter wraps (R11 item 1). -/
theorem elapsed_elapsed (P : Params) {a n : Nat} (ha : a < 2 ^ P.tsW) (hn : n < 2 ^ P.tsW) : elapsed P a (elapsed P a n) = n := by
  unfold elapsed
  rw [stamp_stamp, P.stamp_of_lt n hn]
  unfold Params.stamp
  generalize 2 ^ P.tsW = m at *
  by_cases h : n ≤ a
  · have hback : (a + (m - n)) % m = a - n := by
      rw [show a + (m - n) = a - n + m by omega, Nat.add_mod_right, Nat.mod_eq_of_lt (by omega)]
    rw [hback, show a + (m - (a - n)) = n + m by omega, Nat.add_mod_right, Nat.mod_eq_of_lt hn]
  · have hback : (a + (m - n)) % m = a + (m - n) := Nat.mod_eq_of_lt (by omega)
    rw [hback, show a + (m - (a + (m - n))) = n by omega, Nat.mod_eq_of_lt hn]

theorem elapsed_placedBefore (P : Params) {n : Nat} (hn : n < 2 ^ P.tsW) :
    elapsed P (P.stamp (placedNow P)) (placedBefore P n) = n := by
  unfold placedBefore placedNow
  rw [stamp_stamp]
  exact elapsed_elapsed P (P.stamp_lt _) hn

theorem State.placedTick_txElapsed {s : State} (hP : s.params = Params.default) (w : BitVec 16) :
    (s.placedTick w).txElapsed = placedTxElapsed Params.default (w.getLsbD 10) (w.getLsbD 9) := by
  show elapsed s.params (s.params.stamp (placedNow s.params)) (placedBefore s.params _) = _
  rw [hP]
  refine elapsed_placedBefore _ ?_
  cases w.getLsbD 10 <;> cases w.getLsbD 9 <;> decide

theorem State.placedTick_delta {s : State} (hP : s.params = Params.default) (w : BitVec 16) :
    (s.placedTick w).delta = if w.getLsbD 5 then 0 else Params.default.tNoise := by
  show elapsed s.params (s.params.stamp (placedNow s.params)) (placedBefore s.params _) = _
  rw [hP]
  refine elapsed_placedBefore _ ?_
  cases w.getLsbD 5 <;> decide

theorem State.placedTick_quietTime {s : State} (hP : s.params = Params.default) (w : BitVec 16) :
    (s.placedTick w).quietTime = if w.getLsbD 4 then Params.default.tIdle else 0 := by
  show elapsed s.params (s.params.stamp (placedNow s.params)) (placedBefore s.params _) = _
  rw [hP]
  refine elapsed_placedBefore _ ?_
  cases w.getLsbD 4 <;> decide

/-! ### Bytes -/

theorem longFrame_length : longFrame.length = 160 := List.length_replicate

/-- The session of a placed tick has closed the bytes placed for its parse result. -/
theorem State.placedTick_closedBytes (s : State) (w : BitVec 16) :
    (s.placedTick w).closedBytes = placedBytes s.params (w.extractLsb' 1 2) := by
  have hcount : (s.placedTick w).session.byteCount = (placedBytes s.params (w.extractLsb' 1 2)).length :=
    Nat.mul_div_cancel_left _ (by decide)
  unfold State.closedBytes
  rw [hcount]
  show (placedMemory s w).memRead .rawBytes 0 _ = _
  unfold placedMemory
  dsimp only
  have hpayload : BufferName.rawBytes ≠ .framePayload := nofun
  have hframe : BufferName.rawBytes ≠ .txFrame := nofun
  split_ifs <;>
    simp only [Memory.memRead_copyIn_other _ _ _ _ _ _ hpayload, Memory.memRead_copyIn_other _ _ _ _ _ _ hframe,
      Memory.memRead_copyIn]

/-- The transmit frame of a placed tick is the long one where the window is over and the transmission is not. -/
theorem State.placedTick_txFrameBytes (s : State) (w : BitVec 16) :
    (s.placedTick w).txFrameBytes = if w.getLsbD 9 && !w.getLsbD 10 then longFrame else [] := by
  show (placedMemory s w).memRead .txFrame 0 (if w.getLsbD 9 && !w.getLsbD 10 then 160#9 else 0#9 : BitVec 9).toNat = _
  unfold placedMemory
  dsimp only
  have hpayload : BufferName.txFrame ≠ .framePayload := nofun
  have hlen : (160#9 : BitVec 9).toNat = longFrame.length := longFrame_length.symm
  split_ifs
  · rw [Memory.memRead_copyIn_other _ _ _ _ _ _ hpayload, hlen, Memory.memRead_copyIn]
  · rfl
  · rw [hlen, Memory.memRead_copyIn]
  · rfl

/-- The received payload of a placed tick is a colon or nothing. -/
theorem State.placedTick_framePayloadBytes (s : State) (w : BitVec 16) :
    (s.placedTick w).framePayloadBytes = if w.getLsbD 0 then [s.params.colon] else [] := by
  show (placedMemory s w).memRead .framePayload 0 (if w.getLsbD 0 then 1#8 else 0#8 : Byte).toNat = _
  unfold placedMemory
  dsimp only
  cases w.getLsbD 0
  · rfl
  · exact Memory.memRead_copyIn _ .framePayload [s.params.colon]

theorem popcount_cons (b : Byte) (rest : List Byte) : popcount (b :: rest) = popcount [b] + popcount rest := by
  unfold popcount
  rw [wireBits_cons, List.countP_append]
  rfl

/-- A byte of ones counts eight (R97). -/
theorem popcount_replicate_ones (n : Nat) : popcount (List.replicate n 0xFF#8) = 8 * n := by
  induction n with
  | zero => rfl
  | succ n ih =>
    rw [List.replicate_succ, popcount_cons, ih, show popcount [0xFF#8] = 8 from rfl]
    omega

/-- The long frame outlasts the sender's window (R195). -/
theorem window_lt_total_longFrame : Params.default.tSTimeout < total Params.default longFrame := by
  have hcount : popcount longFrame = 8 * 160 := popcount_replicate_ones 160
  unfold total
  rw [hcount, longFrame_length]
  decide

/-- The bytes placed for a parse result have it, and reach the framer (R129, R114). -/
theorem placedBytes_default : ∀ po : BitVec 2,
    (parseFrame Params.default (placedBytes Params.default po)).bits = po ∧
      Params.default.minBytes ≤ (placedBytes Params.default po).length := by decide

/-! ### The fields of the select word -/

theorem State.placedTick_txDone {s : State} (hP : s.params = Params.default) (w : BitVec 16) :
    (s.placedTick w).txDone = w.getLsbD 10 := by
  show decide (total s.params (s.placedTick w).txFrameBytes ≤ (s.placedTick w).txElapsed) = _
  have hlong := window_lt_total_longFrame
  rw [s.placedTick_txFrameBytes w, State.placedTick_txElapsed hP w, hP]
  cases w.getLsbD 10 <;> cases w.getLsbD 9
  · rfl
  · exact decide_eq_false (Nat.not_le_of_lt hlong)
  · rfl
  · rfl

theorem State.placedTick_windowElapsed {s : State} (hP : s.params = Params.default) (w : BitVec 16) :
    (s.placedTick w).windowElapsed = w.getLsbD 9 := by
  show decide (s.params.tSTimeout ≤ (s.placedTick w).txElapsed) = _
  rw [State.placedTick_txElapsed hP w, hP]
  cases w.getLsbD 10 <;> cases w.getLsbD 9 <;> rfl

theorem State.placedTick_edge (s : State) (w : BitVec 16) : (s.placedTick w).edge = w.getLsbD 8 := by
  show ((s.frontEnd.prevSample ^^ w.getLsbD 8) != s.frontEnd.prevSample) = _
  cases s.frontEnd.prevSample <;> cases w.getLsbD 8 <;> rfl

theorem State.placedTick_belowNoise {s : State} (hP : s.params = Params.default) (w : BitVec 16) :
    (s.placedTick w).belowNoise = w.getLsbD 5 := by
  show decide ((s.placedTick w).delta < s.params.tNoise) = _
  rw [State.placedTick_delta hP w, hP]
  cases w.getLsbD 5 <;> rfl

theorem State.placedTick_idleExpired {s : State} (hP : s.params = Params.default) (w : BitVec 16) :
    (s.placedTick w).idleExpired = w.getLsbD 4 := by
  show decide (s.params.tIdle ≤ (s.placedTick w).quietTime) = _
  rw [State.placedTick_quietTime hP w, hP]
  cases w.getLsbD 4 <;> rfl

theorem State.placedTick_gateOk {s : State} (hP : s.params = Params.default) (w : BitVec 16) :
    (s.placedTick w).session.gateOk (s.placedTick w).params = w.getLsbD 3 := by
  have hcount : (placedSession s.params w).byteCount = (placedBytes s.params (w.extractLsb' 1 2)).length :=
    Nat.mul_div_cancel_left _ (by decide)
  obtain ⟨_, hbytes⟩ := placedBytes_default (w.extractLsb' 1 2)
  show (placedSession s.params w).gateOk s.params = _
  unfold Session.gateOk
  rw [hcount, hP, decide_eq_true hbytes, Bool.true_and]
  show decide (Params.default.tNoise < if w.getLsbD 3 then Params.default.tNoise + 1 else 0) = _
  cases w.getLsbD 3 <;> rfl

theorem State.placedTick_parsed_bits {s : State} (hP : s.params = Params.default) (w : BitVec 16) :
    (s.placedTick w).parsed.bits = w.extractLsb' 1 2 := by
  obtain ⟨hbits, _⟩ := placedBytes_default (w.extractLsb' 1 2)
  show (parseFrame s.params (s.placedTick w).closedBytes).bits = _
  rw [s.placedTick_closedBytes w, hP, hbits]

theorem State.placedTick_colonFound (s : State) (w : BitVec 16) : (s.placedTick w).colonFound = w.getLsbD 0 := by
  show (s.placedTick w).framePayloadBytes.any (fun b => b == s.params.colon) = _
  rw [s.placedTick_framePayloadBytes w]
  cases w.getLsbD 0 <;> simp

/-- The select fields of the placed tick are those of the word (R76; log 11). -/
theorem State.placedTick_select {s : State} (hP : s.params = Params.default) (w : BitVec 16) :
    (s.placedTick w).select = Select.ofWord w := by
  have hrole : (s.placedTick w).role.bit = w.getLsbD 14 := by
    show (if w.getLsbD 14 then Role.receiver else Role.sender).bit = _
    cases w.getLsbD 14 <;> rfl
  unfold State.select
  rw [hrole, State.placedTick_txDone hP, State.placedTick_windowElapsed hP, State.placedTick_edge, State.placedTick_belowNoise hP,
    State.placedTick_idleExpired hP, State.placedTick_gateOk hP, State.placedTick_parsed_bits hP, State.placedTick_colonFound]
  rfl

/-- Settles O6: the placed tick has the fields of the word, and a word is the select word of its fields. -/
theorem everySelectWordCanBePlaced : Obligations.EverySelectWordCanBePlaced := by
  intro s w hP
  rw [State.fetch_withFetchWord, State.sel, State.placedTick_select hP, Select.word_ofWord]

end Sys2Proof.Machine
end

section
/-! The actions of the encoder, counted and summed bit by bit, and the operations that return them (R91 to R96). -/

namespace Sys2Proof.Machine

/-! ### The actions of bits -/

/-- Each bit has one action, a one-bit a second (R92, R93). -/
theorem bitActions_flatMap_length (P : Params) (vs : List Bool) :
    (vs.flatMap (bitActions P)).length = vs.length + vs.countP (fun v => v) := by
  induction vs with
  | nil => rfl
  | cons v vs ih =>
    have hbit : (bitActions P v).length = 1 + if v then 1 else 0 := by cases v <;> rfl
    rw [List.flatMap_cons, List.length_append, ih, hbit, List.length_cons, List.countP_cons]
    omega

theorem bitActions_hold_sum (P : Params) (v : Bool) : ((bitActions P v).map Action.hold).sum = bitTime P v := by
  cases v
  · simp [bitActions, bit0Actions, bitTime]
  · simp [bitActions, bit1Actions, bitTime, Nat.mul_two]

/-- Bits last a half-period each, a one-bit a second one (R92, R93). -/
theorem bitTime_sum (P : Params) (vs : List Bool) :
    (vs.map (bitTime P)).sum = P.tHalf * (vs.length + vs.countP (fun v => v)) := by
  induction vs with
  | nil => rfl
  | cons v vs ih =>
    have hbit : bitTime P v = P.tHalf * (1 + if v then 1 else 0) := by cases v <;> rfl
    rw [List.map_cons, List.sum_cons, ih, hbit, ← Nat.mul_add, List.length_cons, List.countP_cons]
    congr 1
    omega

/-- The holds of bits add up to the bits' times (R92, R93). -/
theorem bitActions_flatMap_hold_sum (P : Params) (vs : List Bool) :
    ((vs.flatMap (bitActions P)).map Action.hold).sum = (vs.map (bitTime P)).sum := by
  induction vs with
  | nil => rfl
  | cons v vs ih =>
    rw [List.flatMap_cons, List.map_append, List.sum_append, ih, bitActions_hold_sum, List.map_cons, List.sum_cons]

/-- Each bit toggles the line exactly once (R92, R93). -/
theorem bitActions_flatMap_toggles (P : Params) (vs : List Bool) :
    (vs.flatMap (bitActions P)).countP Action.toggle = vs.length := by
  induction vs with
  | nil => rfl
  | cons v vs ih =>
    have hbit : (bitActions P v).countP Action.toggle = 1 := by cases v <;> rfl
    rw [List.flatMap_cons, List.countP_append, ih, hbit, List.length_cons, Nat.add_comm]

/-! ### Bytes and frames -/

/-- The bits of a byte are sent from the most significant down (R94). -/
theorem byteActions_eq (P : Params) (b : Byte) :
    byteActions P b = [7, 6, 5, 4, 3, 2, 1, 0].flatMap (fun k => bitActions P (b.getLsbD k)) := rfl

/-- A frame's actions: two for the start pulse and the stop symbol, and those of its bits (R96). -/
theorem frameActions_length (P : Params) (bytes : List Byte) :
    (frameActions P bytes).length = 2 + 8 * bytes.length + popcount bytes := by
  have hbits : ((wireBits bytes).flatMap (bitActions P)).length = 8 * bytes.length + popcount bytes := by
    rw [bitActions_flatMap_length, wireBits_length, popcount]
  rw [frameActions_eq, List.length_append, List.length_append, hbits]
  show 1 + (_ + 1) = _
  omega

/-! ### The operations -/

/-- An operation that hands its actions to its caller returns exactly them and changes no register (R90; log 6). -/
theorem returning_actions (s : State) (as : List Action) :
    ∃ t, Host.Outcome.next (φ := Fault) (ρ := Refusal) (s.returning (.actions as)) = .next t ∧
      t.result = .actions as ∧ SameMachine s t :=
  ⟨_, rfl, rfl, SameMachine.returning s _⟩

/-- Settles O21: each wire symbol returns its action list. -/
theorem wireSymbolsAreTheirActions : Obligations.WireSymbolsAreTheirActions := fun s =>
  ⟨returning_actions s (startActions s.params), returning_actions s (bit0Actions s.params),
    returning_actions s (bit1Actions s.params), returning_actions s (stopActions s.params)⟩

/-- Settles O22: the actions of a byte are those of its eight bits. -/
theorem byteIsSentMostSignificantBitFirst : Obligations.ByteIsSentMostSignificantBitFirst := by
  intro b s
  obtain ⟨t, hexec, hresult, hsame⟩ := returning_actions s (byteActions s.params b)
  refine ⟨t, _, hexec, hresult, hsame, byteActions_eq s.params b, ?length, ?hold, ?toggles⟩
  case length => exact bitActions_flatMap_length s.params (bitsOf b)
  case hold => exact (bitActions_flatMap_hold_sum s.params (bitsOf b)).trans (bitTime_sum s.params (bitsOf b))
  case toggles => exact bitActions_flatMap_toggles s.params (bitsOf b)

/-- Settles O23: the actions of a frame, and their number from that of the bits'. -/
theorem frameIsStartBytesStop : Obligations.FrameIsStartBytesStop := by
  intro bytes s
  obtain ⟨t, hexec, hresult, hsame⟩ := returning_actions s (frameActions s.params bytes)
  exact ⟨t, _, hexec, hresult, hsame, rfl, frameActions_length s.params bytes⟩

end Sys2Proof.Machine
end

section
/-! The waveform of a transmission: its segments one by one, its total and its level at every offset (R97). -/

namespace Sys2Proof.Machine

/-! ### Alternating segments -/

theorem alternating_length (ds : List Nat) : ∀ lvl : Level, (alternating lvl ds).length = ds.length := by
  induction ds with
  | nil => intro lvl; rfl
  | cons d ds ih => intro lvl; rw [alternating, List.length_cons, ih, List.length_cons]

/-- Segment `k` has duration `k`, and the other level than the line's before the first segment when `k` is even. -/
theorem alternating_getElem? (ds : List Nat) : ∀ (lvl : Level) (k : Nat),
    (alternating lvl ds)[k]? = ds[k]?.map (fun d => ⟨lvl ^^ decide (k % 2 = 0), d⟩) := by
  induction ds with
  | nil => intro lvl k; rfl
  | cons d ds ih =>
    intro lvl k
    cases k with
    | zero => simp [alternating]
    | succ k =>
      have hflip : (!lvl ^^ decide (k % 2 = 0)) = (lvl ^^ decide ((k + 1) % 2 = 0)) := by
        rcases Nat.mod_two_eq_zero_or_one k with h | h <;> simp [h, Nat.succ_mod_two_eq_zero_iff]
      rw [alternating, List.getElem?_cons_succ, List.getElem?_cons_succ, ih, hflip]

theorem duration_alternating (ds : List Nat) : ∀ lvl : Level, duration (alternating lvl ds) = ds.sum := by
  induction ds with
  | nil => intro lvl; rfl
  | cons d ds ih => intro lvl; rw [alternating, duration, ih, List.sum_cons]

/-! ### The level at an offset -/

/-- An offset within a segment has that segment's level. -/
theorem levelIn_of_getElem? (P : Params) (gs : List Segment) : ∀ (k e : Nat) (g : Segment), gs[k]? = some g →
    duration (gs.take k) ≤ e → e < duration (gs.take (k + 1)) → levelIn P gs e = g.level := by
  induction gs with
  | nil => intro k e g hg _ _; exact absurd hg (by simp)
  | cons g' gs ih =>
    intro k e g hg hlow hhigh
    cases k with
    | zero =>
      obtain rfl : g' = g := by simpa using hg
      exact if_pos (by simpa [duration] using hhigh)
    | succ k =>
      rw [List.take_succ_cons, duration] at hlow hhigh
      rw [levelIn, if_neg (by omega)]
      exact ih k (e - g'.dur) g (by simpa using hg) (by omega) (by omega)

/-- From the end of its segments on a line is idle. -/
theorem levelIn_of_duration_le (P : Params) (gs : List Segment) : ∀ e, duration gs ≤ e → levelIn P gs e = P.idleLevel := by
  induction gs with
  | nil => intro e _; rfl
  | cons g gs ih =>
    intro e he
    rw [duration] at he
    rw [levelIn, if_neg (by omega)]
    exact ih _ (by omega)

/-! ### The segments of a transmission -/

/-- The bits of a transmission last `T_HALF` for each bit and for each one-bit (R97). -/
theorem bitTime_sum_wireBits (P : Params) (bytes : List Byte) :
    ((wireBits bytes).map (bitTime P)).sum = P.tHalf * (8 * bytes.length + popcount bytes) := by
  rw [bitTime_sum, wireBits_length, popcount]

theorem segments_length (P : Params) (bytes : List Byte) : (segments P bytes).length = 8 * bytes.length + 2 := by
  rw [segments_eq_alternating, alternating_length]
  simp [wireBits_length]

/-- The start pulse is the first segment (R97). -/
theorem segments_getElem?_start (P : Params) (bytes : List Byte) : (segments P bytes)[0]? = some ⟨!P.idleLevel, P.tHalf⟩ := by
  rw [segments_eq_alternating]
  rfl

/-- Bit `k` is segment `k + 1` (R97). -/
theorem segments_getElem?_bit (P : Params) {bytes : List Byte} {k : Nat} {v : Bool} (h : (wireBits bytes)[k]? = some v) :
    (segments P bytes)[k + 1]? = some ⟨P.idleLevel ^^ decide (k % 2 = 1), bitTime P v⟩ := by
  have hbit : ((wireBits bytes).map (bitTime P) ++ [P.tTail])[k]? = some (bitTime P v) := by
    obtain ⟨hk, _⟩ := List.getElem?_eq_some_iff.mp h
    rw [List.getElem?_append_left (by simpa using hk), List.getElem?_map, h]
    rfl
  rw [segments_eq_alternating, alternating_getElem?, List.cons_append, List.getElem?_cons_succ, hbit]
  simp [Nat.succ_mod_two_eq_zero_iff]

/-- The tail is the last segment, at the idle level (R97). -/
theorem segments_getElem?_tail (P : Params) (bytes : List Byte) :
    (segments P bytes)[8 * bytes.length + 1]? = some ⟨P.idleLevel, P.tTail⟩ := by
  have htail : ((wireBits bytes).map (bitTime P) ++ [P.tTail])[8 * bytes.length]? = some P.tTail := by
    rw [← wireBits_length, ← List.length_map (bitTime P)]
    exact List.getElem?_concat_length
  have hodd : ¬ (8 * bytes.length + 1) % 2 = 0 := by omega
  rw [segments_eq_alternating, alternating_getElem?, List.cons_append, List.getElem?_cons_succ, htail]
  simp [hodd]

/-- The total of R97 is the sum of the segments' durations. -/
theorem duration_segments (P : Params) (bytes : List Byte) : duration (segments P bytes) = total P bytes := by
  have hsum : (P.tHalf :: (wireBits bytes).map (bitTime P) ++ [P.tTail]).sum =
      P.tHalf + P.tHalf * (8 * bytes.length + popcount bytes) + P.tTail := by
    rw [List.sum_append, List.sum_cons, bitTime_sum_wireBits, List.sum_singleton]
  rw [segments_eq_alternating, duration_alternating, hsum, total, Config.nStart, Nat.add_assoc 1, Nat.mul_add P.tHalf 1, Nat.mul_one]

/-- Settles O24: the segments alternate from the idle level, with the durations of the start pulse, the bits and the tail. -/
theorem waveformSegmentsAndLevels : Obligations.WaveformSegmentsAndLevels := fun P bytes =>
  ⟨segments_length P bytes, segments_getElem?_start P bytes, fun _ _ => segments_getElem?_bit P,
    segments_getElem?_tail P bytes, duration_segments P bytes, (duration_segments P bytes).symm,
    fun k g e => levelIn_of_getElem? P (segments P bytes) k e g,
    fun e he => levelIn_of_duration_le P (segments P bytes) e ((duration_segments P bytes).trans_le he)⟩

/-! ### The noise-free transmission -/

/-- The last edge of a noise-free transmission is the start of its tail (R97, R99). -/
theorem receivedSession_lastEdgeTime (P : Params) (t0 : Nat) (bytes : List Byte) :
    (receivedSession P t0 bytes).lastEdgeTime = P.stamp (t0 + (total P bytes - P.tTail)) := by
  have htail : total P bytes - P.tTail = P.tHalf + ((wireBits bytes).map (bitTime P)).sum := by
    rw [bitTime_sum_wireBits, total, Config.nStart, Nat.add_sub_cancel, Nat.add_assoc, Nat.mul_add, Nat.mul_one]
  rw [htail, ← Nat.add_assoc]
  rfl

/-- Settles O37: the edges leave the received session and the transmitted bytes; its last edge opens the tail. -/
theorem noiseFreeTransmissionIsDecoded : Obligations.NoiseFreeTransmissionIsDecoded := by
  intro P bytes t0 cells hpremises hfits hroom
  have hdecoded := decEdges_transmission (Params.timingOk hpremises hfits) t0 hroom cells
  exact ⟨_, hdecoded.symm, receivedSession_bytes P t0 bytes cells, rfl, rfl, rfl, rfl, rfl, rfl,
    receivedSession_lastEdgeTime P t0 bytes⟩

end Sys2Proof.Machine
end

section
/-! The decoder's operations performed by themselves: the front end, the edges, the reset of a session (R105 to R115). -/

namespace Sys2Proof.Machine

/-! ### What the operations read -/

/-- An edge is a sample that differs from the last one (R105). -/
theorem State.edge_iff (s : State) : s.edge = true ↔ s.ports.rxLevel ≠ s.frontEnd.prevSample := bne_iff_ne

theorem State.idleExpired_iff (s : State) :
    s.idleExpired = true ↔ s.params.tIdle ≤ elapsed s.params s.now s.frontEnd.lastChangeTime := decide_eq_true_iff

/-- The end-of-frame gate: enough closed bytes, and a period above the noise threshold (R114). -/
theorem Session.gateOk_iff (P : Params) (x : Session) :
    x.gateOk P = true ↔ P.minBytes ≤ x.bitCount / 8 ∧ P.tNoise < x.nominalPeriod := by
  unfold Session.gateOk
  rw [Bool.and_eq_true, decide_eq_true_iff, decide_eq_true_iff]
  rfl

/-- The bit of an accepted delta is 1 exactly when twice the delta is at least three times the lowered period (R110 to R112). -/
theorem Session.bitOf_iff (x : Session) (d : Nat) : x.bitOf d = true ↔ 3 * min x.nominalPeriod d ≤ 2 * d := by
  rw [Session.bitOf, classify_iff, minUpdate_eq_min]

/-! ### What the operations leave unchanged -/

theorem SameBuffers.of_mem_eq {s t : State} (h : t.mem = s.mem) : SameBuffers s t := fun _ _ => by rw [h]

theorem Memory.readByte_memWrite_same (m : Memory) (n : BufferName) (i : Nat) (v : Byte) : (m.memWrite n i v).readByte n i = v := by
  simp only [Memory.readByte, Memory.memWrite, Memory.cells_setCells_same, Cells.read_write_same]

theorem Memory.readByte_memWrite_other (m : Memory) {n b : BufferName} {i j : Nat} (v : Byte) (h : ¬ (b = n ∧ j = i)) :
    (m.memWrite n i v).readByte b j = m.readByte b j := by
  by_cases hb : b = n
  · subst hb
    simp only [Memory.readByte, Memory.memWrite, Memory.cells_setCells_same]
    exact Cells.read_write_other _ _ _ _ _ fun hj => h ⟨rfl, hj⟩
  · exact Memory.readByte_setCells_other m n b _ j hb

/-! ### The statements -/

/-- Settles O27: each field that `RXFE.SAMPLE` writes, with the signals it is computed from. -/
theorem frontEndSamplesTheLine : Obligations.FrontEndSamplesTheLine := fun s =>
  ⟨_, s.edge, s.idleExpired, rfl, s.edge_iff, s.idleExpired_iff, rfl, rfl, rfl, rfl, .of_mem_eq rfl⟩

/-- Settles O28: each register of `Session.seedWith`. -/
theorem seedRecordsTheReference : Obligations.SeedRecordsTheReference := fun _ =>
  ⟨_, rfl, rfl, rfl, rfl, rfl, rfl, rfl, rfl, rfl, .of_mem_eq rfl⟩

/-- Settles O29: each register of `Session.calibrateWith`; the exact quotient is `scale_eq`. -/
theorem calibrationLearnsThePeriod : Obligations.CalibrationLearnsThePeriod := by
  rintro s d rfl
  exact ⟨_, rfl, rfl, fun hmargin => scale_eq s.params _ hmargin (elapsed_lt _ _ _), rfl, rfl, rfl, rfl, rfl, rfl, rfl,
    .of_mem_eq rfl⟩

theorem State.sessionReset_closedBytes (s : State) : s.sessionReset.closedBytes = [] := by
  unfold State.closedBytes
  rw [State.sessionReset_session, Session.empty_byteCount]
  rfl

/-- Settles O33: each register of `Session.empty`; with no bit counted there is no closed byte. -/
theorem sessionResetClearsTheSession : Obligations.SessionResetClearsTheSession := fun s =>
  ⟨_, rfl, rfl, rfl, rfl, rfl, rfl, rfl, rfl, s.sessionReset_closedBytes, rfl, rfl, .of_mem_eq rfl⟩

/-- Settles O30: the byte assembler drops the bit, shifts it in, or closes a byte and writes its cell. -/
theorem acceptedEdgeYieldsOneBit : Obligations.AcceptedEdgeYieldsOneBit := by
  rintro s d p v rfl rfl hv
  have hbit : s.session.bitOf s.delta = v := by
    rw [Bool.eq_iff_iff, hv]
    exact s.session.bitOf_iff s.delta
  have hshift : (s.session.shiftIn v).toNat = (2 * s.session.shift.toNat + v.toNat) % 256 := by
    have hsmall := v.toNat_lt
    rw [Session.shiftIn_toNat]
    omega
  refine ⟨_, rfl, minUpdate_eq_min _ _, rfl, rfl, Session.bitWith_seeded .., Session.bitWith_calibrating .., rfl, ?_⟩
  rw [Session.bitWith_bitCount, Session.bitWith_shift, hbit]
  rcases s.session.accumulate_cases s.params s.mem.rawBytes v with
    ⟨hfull, hx, hcs⟩ | ⟨hroom, hpart, hx, hcs⟩ | ⟨hroom, hlast, hx, hcs⟩ <;> rw [hx, hcs]
  · exact ⟨fun _ => ⟨rfl, rfl, .of_mem_eq rfl⟩, fun hroom => absurd hroom (Nat.not_lt_of_le hfull)⟩
  · exact ⟨fun hfull => absurd hroom (Nat.not_lt_of_le hfull), fun _ =>
      ⟨rfl, fun _ => ⟨hshift, .of_mem_eq rfl⟩, fun hlast => absurd hlast hpart⟩⟩
  · refine ⟨fun hfull => absurd hroom (Nat.not_lt_of_le hfull), fun _ => ⟨rfl, fun hpart => absurd hlast hpart, fun _ =>
      ⟨rfl, ?_, fun _ _ => s.mem.readByte_memWrite_other _⟩⟩⟩
    exact (congrArg BitVec.toNat (s.mem.readByte_memWrite_same .rawBytes _ _)).trans hshift

end Sys2Proof.Machine
end

section
/-! The end of a session, by itself and in a listening receiver's tick: the idle timeout is `DEC.IDLE`, an edge before it is `DecEdge`
(R114, R116, R149). -/

namespace Sys2Proof.Machine

/-! ### The arms of `DEC.IDLE` -/

theorem State.endOfFrame_discard {s : State} (hgate : s.session.gateOk s.params = false) :
    s.endOfFrame = s.endSession .noiseOnlySession := by
  simp [State.endOfFrame, hgate]

theorem State.endOfFrame_ok {s : State} {f : Frame} (hgate : s.session.gateOk s.params = true) (hf : s.parsed = .ok f) :
    s.endOfFrame = s.acceptFrame f := by
  simp [State.endOfFrame, hgate, hf]

theorem State.endOfFrame_err {s : State} {k : FrameError} (hgate : s.session.gateOk s.params = true) (hk : s.parsed = .err k) :
    s.endOfFrame = s.endSession k.kind := by
  simp [State.endOfFrame, hgate, hk]

theorem execRAccept_of_parsed {s : State} {f : Frame} (hf : s.parsed = .ok f) : execRAccept s = .next (s.acceptFrame f) := by
  simp [execRAccept, hf]

/-- The arm of a framer error raises that error's kind (R154 to R156). -/
theorem exec_idleArm_err (s : State) (k : FrameError) : exec (idleArm (ParseResult.err k).bits) s = .next (s.endSession k.kind) := by
  cases k <;> rfl

/-- Past the gate, the arm that the parse result selects does what `DEC.IDLE` does (R77, R114). -/
theorem exec_idleArm {s : State} (hgate : s.session.gateOk s.params = true) :
    exec (idleArm s.parsed.bits) s = .next s.endOfFrame := by
  cases hp : s.parsed with
  | ok f => rw [State.endOfFrame_ok hgate hp]; exact execRAccept_of_parsed hp
  | err k => rw [State.endOfFrame_err hgate hp]; exact exec_idleArm_err s k

/-- Settles O34: below the gate the arm is `R.DISCARD`, past it that of the parse result (`exec_idleArm`). -/
theorem idleTimeoutTakesTheArmOfItsResult : Obligations.IdleTimeoutTakesTheArmOfItsResult := by
  intro s
  refine ⟨⟨_, rfl⟩, fun hfail => ?_, fun hbytes hperiod => ?_⟩
  · have hgate : s.session.gateOk s.params = false := by
      rw [Bool.eq_false_iff, ne_eq, Session.gateOk_iff]
      omega
    exact congrArg Host.Outcome.next (State.endOfFrame_discard hgate)
  · have harm := exec_idleArm ((Session.gateOk_iff _ _).mpr ⟨hbytes, hperiod⟩)
    have hselect : ∀ r, parseFrame s.params s.closedBytes = r → exec .decIdle s = exec (idleArm r.bits) s := by
      rintro _ rfl
      exact harm.symm
    exact ⟨fun f => hselect (.ok f), hselect (.err .signatureMismatch), hselect (.err .truncated), hselect (.err .checksumMismatch)⟩

/-! ### The operation of a listening receiver's tick -/

/-- The operation of the idle timeout does what `DEC.IDLE` does (R114, R149). -/
theorem exec_listeningChoice_idle {s : State} (hseed : s.session.seeded = true) (hidle : s.idleExpired = true) :
    exec s.select.listeningChoice s = .next s.endOfFrame := by
  have hchoice : s.select.listeningChoice = if s.session.gateOk s.params then idleArm s.parsed.bits else .rDiscard := by
    simp [Select.listeningChoice, State.select, hseed, hidle]
  rw [hchoice]
  split_ifs with hgate
  · exact exec_idleArm hgate
  · exact congrArg Host.Outcome.next (State.endOfFrame_discard (Bool.eq_false_iff.mpr hgate)).symm

/-- With neither an edge nor an idle timeout the operation writes nothing (R149 to R151). -/
theorem exec_listeningChoice_quiet {s : State} (hedge : s.edge = false) (hidle : s.session.seeded = false ∨ s.idleExpired = false) :
    exec s.select.listeningChoice s = .next s := by
  have hchoice : s.select.listeningChoice = if s.session.seeded then .rInframe else .rQuiet := by
    rcases hidle with h | h <;> simp [Select.listeningChoice, State.select, hedge, h]
  rw [hchoice]
  split_ifs <;> rfl

/-! ### The step of a placed tick -/

/-- A step that finds a tick placed is that tick, in the state with the rest placed (R82, R162). -/
theorem step_eq_tick {s : State} {p : Ports} {rest : List Stimulus} (h : s.stimuli = .tick p :: rest) :
    step s = tick { s with stimuli := rest } p := by
  unfold tick
  rw [← h]

/-- The state that the operation of a placed tick is performed in: the rest is placed, the inputs are sampled (R162). -/
def State.atTick (s : State) (p : Ports) (rest : List Stimulus) : State := ({ s with stimuli := rest } : State).beginTick p

/-- What a listening receiver's placed tick leaves: what the operation of R84's listening branch did, and the sample (R105, R162). -/
theorem step_listening {s t v : State} {p : Ports} {rest : List Stimulus} (hs : s.stimuli = .tick p :: rest)
    (hrole : s.role = .receiver) (hst : s.st = rListening) (hrst : p.rst = false) (h : step s = .next t)
    (he : exec (s.atTick p rest).select.listeningChoice (s.atTick p rest) = .next v) :
    t = { v with frontEnd := (s.atTick p rest).frontEndAfter } :=
  Host.Outcome.next.inj (h.symm.trans ((step_eq_tick hs).trans (tick_listening hrole hst hrst he)))

/-- Elapsed time depends on the current time's lowest `TS_W` bits only (R11 item 1). -/
theorem elapsed_stamp_left (P : Params) (a b : Nat) : elapsed P (P.stamp a) b = elapsed P a b := Nat.mod_add_mod _ _ _

theorem State.atTick_idleExpired_iff (s : State) (p : Ports) (rest : List Stimulus) :
    (s.atTick p rest).idleExpired = true ↔ s.params.tIdle ≤ elapsed s.params p.now s.frontEnd.lastChangeTime := by
  rw [State.idleExpired_iff, ← elapsed_stamp_left s.params p.now]
  rfl

theorem State.atTick_edge_iff (s : State) (p : Ports) (rest : List Stimulus) :
    (s.atTick p rest).edge = true ↔ p.rxLevel ≠ s.frontEnd.prevSample := State.edge_iff _

/-- Settles O35: an edge does `DecEdge` (`exec_listeningChoice_edge`), a tick without one writes nothing. -/
theorem listeningTickIsDecEdge : Obligations.ListeningTickIsDecEdge := by
  intro s t p rest hs hrole hst hrst hearly h
  have hidle : (s.atTick p rest).session.seeded = false ∨ (s.atTick p rest).idleExpired = false := by
    rw [← s.atTick_idleExpired_iff p rest, not_and_or, Bool.not_eq_true, Bool.not_eq_true] at hearly
    exact hearly
  cases hedge : (s.atTick p rest).edge with
  | true =>
    have hlevel := (s.atTick_edge_iff p rest).mp hedge
    obtain rfl := step_listening hs hrole hst hrst h (exec_listeningChoice_edge hedge hidle)
    exact ⟨hst, fun _ => rfl, fun hsame => absurd hsame hlevel⟩
  | false =>
    have hlevel := mt (s.atTick_edge_iff p rest).mpr (Bool.eq_false_iff.mp hedge)
    obtain rfl := step_listening hs hrole hst hrst h (exec_listeningChoice_quiet hedge hidle)
    exact ⟨hst, fun hne => absurd hne hlevel, fun _ => rfl⟩

/-! ### The idle timeout as `DecIdle` -/

theorem decIdleEvent_discard {P : Params} {x : SessionValue} (hgate : x.regs.gateOk P = false) :
    (decIdleEvent P x).1 = .discard := by
  simp [decIdleEvent, hgate]

theorem decIdleEvent_handoff {P : Params} {x : SessionValue} (hgate : x.regs.gateOk P = true) :
    (decIdleEvent P x).1 = .handoff x.bytes := by
  simp [decIdleEvent, hgate]

theorem State.acceptFrame_framePayloadBytes {s : State} {f : Frame} (hf : s.parsed = .ok f) :
    (s.acceptFrame f).framePayloadBytes = f.payload := by
  show (s.mem.copyIn .framePayload f.payload).memRead .framePayload 0 f.length.toNat = f.payload
  rw [← parseFrame_payload_length hf]
  exact Memory.memRead_copyIn _ _ _

/-- What a session that ends in an error leaves: the error recorded, and an empty session or one seeded by the tick's own edge
(R114, R170). -/
theorem State.endSession_spec (s : State) (k : ErrorKind) :
    (s.endSession k).outcome = k.code ∧ (s.endSession k).outcomeStrobe = true ∧ (s.endSession k).st = rListening ∧
      (s.endSession k).session =
        if (s.endSession k).st = rListening ∧ s.ports.rxLevel ≠ s.frontEnd.prevSample then
          (Session.empty s.params).seedWith s.now s.ports.rxLevel
        else Session.empty s.params := by
  rw [State.endSession_eq]
  exact ⟨rfl, rfl, rfl, if_congr (s.edge_iff.trans ⟨fun hne => ⟨rfl, hne⟩, And.right⟩) rfl rfl⟩

/-- Settles O36: the tick is `DEC.IDLE` (`exec_listeningChoice_idle`); its arms are those of the hand-off and the discard. -/
theorem idleTickIsDecIdle : Obligations.IdleTickIsDecIdle := by
  intro s t p rest hs hrole hst hrst hseed hidle h
  obtain rfl := step_listening hs hrole hst hrst h
    (exec_listeningChoice_idle hseed ((s.atTick_idleExpired_iff p rest).mpr hidle))
  rcases (s.atTick p rest).endOfFrame_cases with ⟨hgate, he⟩ | ⟨f, hgate, hparse, he⟩ | ⟨k, hgate, hparse, he⟩ <;> rw [he]
  · obtain ⟨houtcome, hstrobe, hlisten, hsession⟩ := (s.atTick p rest).endSession_spec .noiseOnlySession
    rw [decIdleEvent_discard (P := s.params) (x := s.sessionValue) hgate]
    exact ⟨hstrobe, ⟨houtcome, hlisten⟩, hsession⟩
  · have hparse' : parseFrame s.params s.sessionValue.bytes = .ok f := hparse
    rw [decIdleEvent_handoff (P := s.params) (x := s.sessionValue) hgate]
    dsimp only
    rw [hparse']
    exact ⟨rfl, ⟨rfl, rfl, rfl, State.acceptFrame_framePayloadBytes hparse⟩,
      (if_neg fun ⟨hlisten, _⟩ => absurd hlisten (by decide : rApplying ≠ rListening)).symm⟩
  · have hparse' : parseFrame s.params s.sessionValue.bytes = .err k := hparse
    obtain ⟨houtcome, hstrobe, hlisten, hsession⟩ := (s.atTick p rest).endSession_spec k.kind
    rw [decIdleEvent_handoff (P := s.params) (x := s.sessionValue) hgate]
    dsimp only
    rw [hparse']
    exact ⟨hstrobe, ⟨houtcome, hlisten⟩, hsession⟩

end Sys2Proof.Machine
end

section
/-! The checksum of a byte sequence: the exclusive-or of its bytes, in any order, and what one changed byte does to it (R126). -/

namespace Sys2Proof.Machine

/-- An operation that hands a value to its caller returns exactly it and changes no register (R90, 42_framer.md; log 6). -/
theorem State.returning_spec (s : State) (r : FuncResult) :
    ∃ t, Host.Outcome.next (φ := Fault) (ρ := Refusal) (s.returning r) = .next t ∧ t.result = r ∧ SameMachine s t :=
  ⟨_, rfl, rfl, SameMachine.returning s r⟩

theorem xorBytes_append (x y : List Byte) : xorBytes (x ++ y) = xorBytes x ^^^ xorBytes y := by
  induction y using List.reverseRecOn with
  | nil => rw [List.append_nil, xorBytes_nil, BitVec.xor_zero]
  | append_singleton y b ih => rw [← List.append_assoc, xorBytes_snoc, xorBytes_snoc, ih, BitVec.xor_assoc]

theorem xorBytes_singleton (b : Byte) : xorBytes [b] = b := BitVec.zero_xor

theorem xorBytes_cons (b : Byte) (x : List Byte) : xorBytes (b :: x) = b ^^^ xorBytes x := by
  rw [← List.singleton_append, xorBytes_append, xorBytes_singleton]

/-- The checksum does not depend on the order of the bytes (R126). -/
theorem xorBytes_perm {x y : List Byte} (h : x.Perm y) : xorBytes x = xorBytes y := by
  induction h with
  | nil => rfl
  | cons b _ ih => rw [xorBytes_cons, xorBytes_cons, ih]
  | swap a b x => simp only [xorBytes_cons, ← BitVec.xor_assoc, BitVec.xor_comm a b]
  | trans _ _ ih₁ ih₂ => exact ih₁.trans ih₂

/-- Changing one byte by a mask changes the checksum by the same mask. -/
theorem xorBytes_set_xor (m : Byte) {x : List Byte} {i : Nat} {b : Byte} (h : x[i]? = some b) :
    xorBytes (x.set i (b ^^^ m)) = xorBytes x ^^^ m := by
  induction x generalizing i with
  | nil => cases h
  | cons a x ih =>
    cases i with
    | zero =>
      obtain rfl : a = b := Option.some.inj h
      rw [List.set_cons_zero, xorBytes_cons, xorBytes_cons, BitVec.xor_assoc, BitVec.xor_assoc, BitVec.xor_comm m]
    | succ i => rw [List.set_cons_succ, xorBytes_cons, xorBytes_cons, ih h, BitVec.xor_assoc]

/-- A byte with one of its eight bits flipped is another byte. -/
theorem flipBit_ne (b : Byte) {k : Nat} (hk : k < 8) : b ^^^ BitVec.twoPow 8 k ≠ b := by
  intro h
  have hbit := congrArg (fun c : Byte => c.getLsbD k) h
  simp [hk] at hbit

/-- Settles O39: `xorBytes_append` and what follows from it. -/
theorem checksumIsTheExclusiveOr : Obligations.ChecksumIsTheExclusiveOr :=
  ⟨fun x s => s.returning_spec (.byte (xorBytes x)), xorBytes_nil, xorBytes_snoc,
    fun b => ⟨xorBytes_singleton b, by rw [xorBytes_cons, xorBytes_singleton, BitVec.xor_self]⟩,
    fun _ _ => xorBytes_perm, by decide⟩

end Sys2Proof.Machine
end

section
/-! What `FRM.BUILD`, `FRM.SERIALIZE` and `FRM.PARSE` give: each test of the parser, and the byte sequences that parse to a frame
(R127 to R130). -/

namespace Sys2Proof.Machine

/-! ### Valid frames -/

/-- What makes a frame valid (R125). -/
theorem frameValid_iff (f : Frame) : frameValid f = true ↔ f.payload.length = f.length.toNat ∧ xorBytes f.payload = f.checksum := by
  rw [frameValid, Bool.and_eq_true, f.wf_iff, decide_eq_true_iff, eq_comm (a := f.checksum)]

/-- Settles O40: `byteLen_toNat` and `buildFrame_valid`. -/
theorem buildAndSerialise : Obligations.BuildAndSerialise := by
  refine ⟨fun payload s hlen => ?_, fun f s => s.returning_spec (.bytes (serialize s.params f))⟩
  obtain ⟨t, hexec, hresult, hsame⟩ := s.returning_spec (.frame (buildFrame payload))
  exact ⟨t, buildFrame payload, hexec, hresult, byteLen_toNat (Nat.lt_succ_of_le hlen), rfl, rfl, buildFrame_valid hlen, hsame⟩

/-! ### The tests that fail -/

theorem parseFrame_of_length_lt (P : Params) {bytes : List Byte} (h : bytes.length < 4) : parseFrame P bytes = .err .truncated :=
  if_pos h

theorem parseFrame_of_signature_ne {P : Params} {bytes : List Byte} (hlen : 4 ≤ bytes.length) (hsig : bytes.take 4 ≠ P.sig) :
    parseFrame P bytes = .err .signatureMismatch := by
  unfold parseFrame
  rw [if_neg (by omega)]
  exact if_pos hsig

/-- Below the declared length the sequence is truncated, with or without a length byte (R129, R130). -/
theorem parseFrame_of_incomplete {P : Params} {bytes : List Byte} (hsig : bytes.take 4 = P.sig)
    (hshort : bytes.length < declaredLength bytes + 6) : parseFrame P bytes = .err .truncated := by
  have hsig' : ¬ slice bytes 0 4 ≠ P.sig := not_not.mpr hsig
  by_cases h4 : bytes.length < 4
  · exact parseFrame_of_length_lt P h4
  · unfold parseFrame
    rw [if_neg h4, if_neg hsig', if_pos hshort, ite_self]

theorem parseFrame_of_checksum_ne {P : Params} {bytes : List Byte} (hsig : bytes.take 4 = P.sig)
    (hlen : declaredLength bytes + 6 ≤ bytes.length) (hsum : xorBytes (frameIn bytes).payload ≠ (frameIn bytes).checksum) :
    parseFrame P bytes = .err .checksumMismatch := by
  have hsig' : ¬ slice bytes 0 4 ≠ P.sig := not_not.mpr hsig
  unfold parseFrame
  rw [if_neg (by omega), if_neg hsig', if_neg (by omega), if_neg (by omega), if_pos hsum]

/-! ### The bytes of a frame, and more bytes after them -/

theorem declaredLength_append {bytes : List Byte} (tail : List Byte) (h : 4 < bytes.length) :
    declaredLength (bytes ++ tail) = declaredLength bytes := by
  unfold declaredLength
  rw [List.getD_append _ _ _ _ h]

theorem slice_append {bytes : List Byte} (tail : List Byte) {i n : Nat} (h : i + n ≤ bytes.length) :
    slice (bytes ++ tail) i n = slice bytes i n := by
  unfold slice
  rw [List.drop_append_of_le_length (by omega), List.take_append_of_le_length (by rw [List.length_drop]; omega)]

/-- The fields of a frame are read within its declared length (R132 item 4). -/
theorem frameIn_append {bytes : List Byte} (tail : List Byte) (h : declaredLength bytes + 6 ≤ bytes.length) :
    frameIn (bytes ++ tail) = frameIn bytes := by
  unfold frameIn
  rw [declaredLength_append tail (by omega), List.getD_append _ _ _ _ (by omega), List.getD_append _ _ _ _ (by omega),
    slice_append tail (by omega)]

theorem serialize_append_take_sig (P : Params) (f : Frame) (tail : List Byte) : (serialize P f ++ tail).take 4 = P.sig := by
  rw [serialize_eq]
  rfl

/-- What the parser reads of a well-formed frame's bytes, whatever follows them. -/
theorem serialize_append_fields (P : Params) {f : Frame} (hlen : f.payload.length = f.length.toNat) (tail : List Byte) :
    declaredLength (serialize P f ++ tail) + 6 ≤ (serialize P f ++ tail).length ∧ frameIn (serialize P f ++ tail) = f := by
  have hdeclared := declaredLength_serialize P f
  have hall := serialize_length P f
  rw [declaredLength_append tail (by omega), List.length_append, frameIn_append tail (by omega)]
  exact ⟨by omega, frameIn_serialize P (f.wf_iff.mpr hlen)⟩

/-- The bytes of a frame of the right length but the wrong checksum (R129). -/
theorem parseFrame_serialize_mismatch (P : Params) {f : Frame} (hlen : f.payload.length = f.length.toNat)
    (hsum : xorBytes f.payload ≠ f.checksum) (tail : List Byte) : parseFrame P (serialize P f ++ tail) = .err .checksumMismatch := by
  obtain ⟨hroom, hframe⟩ := serialize_append_fields P hlen tail
  exact parseFrame_of_checksum_ne (serialize_append_take_sig P f tail) hroom (hframe.symm ▸ hsum)

/-! ### The byte sequences that parse -/

theorem slice_append_drop (bytes : List Byte) (i n : Nat) : slice bytes i n ++ bytes.drop (i + n) = bytes.drop i := by
  rw [slice, ← List.drop_drop, List.take_append_drop]

theorem drop_eq_getD_cons {bytes : List Byte} (d : Byte) {i : Nat} (h : i < bytes.length) :
    bytes.drop i = bytes.getD i d :: bytes.drop (i + 1) := by
  rw [List.drop_eq_getElem_cons h, List.getD_eq_getElem _ _ h]

/-- A long enough sequence with the right signature begins with the bytes of the frame it describes (R58). -/
theorem eq_serialize_frameIn_append {P : Params} {bytes : List Byte} (hsig : bytes.take 4 = P.sig)
    (hlen : declaredLength bytes + 6 ≤ bytes.length) :
    bytes = serialize P (frameIn bytes) ++ bytes.drop (5 + declaredLength bytes + 1) :=
  calc bytes
    _ = P.sig ++ bytes.drop 4 := by rw [← hsig, List.take_append_drop]
    _ = P.sig ++ bytes.getD 4 0#8 :: bytes.drop 5 := by rw [drop_eq_getD_cons 0#8 (by omega)]
    _ = P.sig ++ bytes.getD 4 0#8 :: (slice bytes 5 (declaredLength bytes) ++
          bytes.getD (5 + declaredLength bytes) 0#8 :: bytes.drop (5 + declaredLength bytes + 1)) := by
      rw [← drop_eq_getD_cons 0#8 (i := 5 + declaredLength bytes) (by omega), slice_append_drop]
    _ = serialize P (frameIn bytes) ++ bytes.drop (5 + declaredLength bytes + 1) := by simp [serialize, frameIn]

/-- A sequence parses to a frame exactly when the frame is valid and the sequence begins with its bytes (R129, R132). -/
theorem parseFrame_ok_iff_serialize (P : Params) (bytes : List Byte) (f : Frame) :
    parseFrame P bytes = .ok f ↔ frameValid f = true ∧ ∃ tail, bytes = serialize P f ++ tail := by
  constructor
  · intro h
    have hpayload := parseFrame_payload_length h
    obtain ⟨hsig, hlen, hsum, rfl⟩ := (parseFrame_ok_iff P bytes f).mp h
    exact ⟨(frameValid_iff _).mpr ⟨hpayload, hsum⟩, _, eq_serialize_frameIn_append hsig hlen⟩
  · rintro ⟨hvalid, tail, rfl⟩
    obtain ⟨hpayload, hsum⟩ := (frameValid_iff f).mp hvalid
    obtain ⟨hlen, hframe⟩ := serialize_append_fields P hpayload tail
    refine (parseFrame_ok_iff P _ f).mpr ⟨serialize_append_take_sig P f tail, hlen, ?_, hframe.symm⟩
    rw [hframe, hsum]

/-- Settles O41: the lemma of each test; the last two read the sequence as the bytes of a frame. -/
theorem parseTestsInOrder : Obligations.ParseTestsInOrder := by
  intro bytes s
  obtain ⟨t, hexec, hresult, hsame⟩ := s.returning_spec (.parsed (parseFrame s.params bytes))
  refine ⟨t, parseFrame s.params bytes, hexec, hresult, hsame, parseFrame_of_length_lt s.params, parseFrame_of_signature_ne, ?_, ?_⟩
  · rintro rfl
    exact parseFrame_of_incomplete rfl (Nat.lt_of_lt_of_le (by decide : 4 < 6) (Nat.le_add_left 6 _))
  · rintro l rest rfl
    refine ⟨fun hshort => parseFrame_of_incomplete rfl ?_, ?_⟩
    · show rest.length + 5 < l.toNat + 6
      omega
    · rintro payload tail c rfl hlen
      have hbytes : s.params.sig ++ [l] ++ (payload ++ [c] ++ tail) =
          serialize s.params { length := l, payload := payload, checksum := c } ++ tail := by simp [serialize]
      rw [hbytes]
      exact ⟨fun hne => parseFrame_serialize_mismatch s.params hlen hne tail,
        fun heq => (parseFrame_ok_iff_serialize _ _ _).mpr ⟨(frameValid_iff _).mpr ⟨hlen, heq⟩, tail, rfl⟩⟩

end Sys2Proof.Machine
end

section
/-! One changed byte of a serialised frame, and the properties of the framer (R132). -/

namespace Sys2Proof.Machine

/-! ### One changed byte -/

theorem serialize_set_body (P : Params) (f : Frame) (k : Nat) (b : Byte) :
    (serialize P f).set (5 + k) b = [P.sig0, P.sig1, P.sig2, P.sig3, f.length] ++ (f.payload ++ [f.checksum]).set k b := by
  rw [serialize_eq, List.set_append_right _ _ (Nat.le_add_right 5 k)]
  congr 2
  exact Nat.add_sub_cancel_left 5 k

theorem serialize_set_payload (P : Params) (f : Frame) {i : Nat} (b : Byte) (h : i < f.payload.length) :
    (serialize P f).set (5 + i) b = serialize P { f with payload := f.payload.set i b } := by
  rw [serialize_set_body, List.set_append_left _ _ h, serialize_eq]

theorem serialize_set_checksum (P : Params) (f : Frame) (c : Byte) :
    (serialize P f).set (5 + f.payload.length) c = serialize P { f with checksum := c } := by
  rw [serialize_set_body, List.set_append_right _ _ (Nat.le_refl _), Nat.sub_self, serialize_eq]
  rfl

/-- A changed signature byte is a wrong signature. -/
theorem serialize_set_sig_ne (P : Params) (f : Frame) {i : Nat} {b c : Byte} (hi : i < 4) (hb : (serialize P f)[i]? = some b)
    (hc : c ≠ b) : ((serialize P f).set i c).take 4 ≠ P.sig := by
  intro h
  have hlen := serialize_length P f
  have hsig : (serialize P f).take 4 = P.sig := List.append_nil (serialize P f) ▸ serialize_append_take_sig P f []
  have hbyte : ((serialize P f).set i c)[i]? = (serialize P f)[i]? := by
    rw [← List.getElem?_take_of_lt hi, h, ← hsig, List.getElem?_take_of_lt hi]
  rw [List.getElem?_set_self (by omega), hb] at hbyte
  exact hc (Option.some.inj hbyte)

/-! ### A flipped bit -/

theorem parseFrame_payload_flipped (P : Params) {f : Frame} {i k : Nat} {b : Byte} (h : frameValid f = true)
    (hb : f.payload[i]? = some b) (hk : k < 8) :
    parseFrame P ((serialize P f).set (5 + i) (b ^^^ BitVec.twoPow 8 k)) = .err .checksumMismatch := by
  obtain ⟨hlen, hsum⟩ := (frameValid_iff f).mp h
  obtain ⟨hi, _⟩ := List.getElem?_eq_some_iff.mp hb
  rw [serialize_set_payload P f _ hi, ← List.append_nil (serialize P _)]
  refine parseFrame_serialize_mismatch P (List.length_set.trans hlen) ?_ []
  rw [xorBytes_set_xor _ hb, hsum]
  exact flipBit_ne _ hk

theorem parseFrame_checksum_flipped (P : Params) {f : Frame} {k : Nat} (h : frameValid f = true) (hk : k < 8) :
    parseFrame P ((serialize P f).set (5 + f.length.toNat) (f.checksum ^^^ BitVec.twoPow 8 k)) = .err .checksumMismatch := by
  obtain ⟨hlen, hsum⟩ := (frameValid_iff f).mp h
  rw [← hlen, serialize_set_checksum, ← List.append_nil (serialize P _)]
  have hne : xorBytes f.payload ≠ f.checksum ^^^ BitVec.twoPow 8 k := hsum.trans_ne (flipBit_ne _ hk).symm
  exact parseFrame_serialize_mismatch P (f := { f with checksum := f.checksum ^^^ BitVec.twoPow 8 k }) hlen hne []

theorem parseFrame_signature_flipped (P : Params) {f : Frame} {i k : Nat} {b : Byte} (hi : i < 4)
    (hb : (serialize P f)[i]? = some b) (hk : k < 8) :
    parseFrame P ((serialize P f).set i (b ^^^ BitVec.twoPow 8 k)) = .err .signatureMismatch := by
  refine parseFrame_of_signature_ne ?_ (serialize_set_sig_ne P f hi hb (flipBit_ne b hk))
  rw [List.length_set, serialize_length]
  omega

/-! ### The properties -/

/-- Settles O42: the sequences that parse are those that begin with a valid frame's bytes (`parseFrame_ok_iff_serialize`), and one
flipped bit of them fails its test. -/
theorem framerProperties : Obligations.FramerProperties := by
  refine fun P => ⟨fun p hp => parseFrame_serialize P (buildFrame_valid hp), fun bytes f h => ?_,
    fun f i k b hf hb hk => parseFrame_payload_flipped P hf hb hk,
    fun f i k b _ hi hb hk => parseFrame_signature_flipped P hi hb hk,
    fun f k hf hk => parseFrame_checksum_flipped P hf hk, fun bytes more f h => ?_⟩
  · obtain ⟨hvalid, tail, rfl⟩ := (parseFrame_ok_iff_serialize P bytes f).mp h
    have hlen : f.length.toNat + 6 = (serialize P f).length := by rw [serialize_length, ((frameValid_iff f).mp hvalid).1]
    exact ⟨hvalid, by rw [hlen, List.take_left]⟩
  · obtain ⟨hvalid, tail, rfl⟩ := (parseFrame_ok_iff_serialize P bytes f).mp h
    exact (parseFrame_ok_iff_serialize P _ f).mpr ⟨hvalid, tail ++ more, List.append_assoc _ _ _⟩

end Sys2Proof.Machine
end

section
/-! The credential splitter on a payload with and without a colon (R131). -/

namespace Sys2Proof.Machine

/-- The colon after bytes that hold none is the first one. -/
theorem colonIndex_append_colon (P : Params) {a : List Byte} (b : List Byte) (h : P.colon ∉ a) :
    colonIndex P (a ++ P.colon :: b) = some a.length := by
  induction a with
  | nil => exact if_pos rfl
  | cons c a ih =>
    obtain ⟨hc, ha⟩ := not_or.mp (mt List.mem_cons.mpr h)
    rw [List.cons_append, colonIndex, if_neg (Ne.symm hc), ih ha]
    rfl

theorem splitCredentials_append_colon (P : Params) {a : List Byte} (b : List Byte) (h : P.colon ∉ a) :
    splitCredentials P (a ++ P.colon :: b) = .ok a b := by
  rw [splitCredentials, colonIndex_append_colon P b h]
  simp

theorem splitCredentials_of_not_mem {P : Params} {p : List Byte} (h : P.colon ∉ p) : splitCredentials P p = .err := by
  rw [splitCredentials, (colonIndex_none_iff P p).mpr h]

/-- Settles O44: `splitCredentials_append_colon` and `splitCredentials_of_not_mem`. -/
theorem credentialsSplitOnTheFirstColon : Obligations.CredentialsSplitOnTheFirstColon := by
  refine ⟨fun a b s h => ?_, fun p s h => ?_⟩
  · rw [← splitCredentials_append_colon s.params b h, List.append_assoc]
    exact s.returning_spec (.split (splitCredentials s.params (a ++ ([s.params.colon] ++ b))))
  · rw [← splitCredentials_of_not_mem h]
    exact s.returning_spec (.split (splitCredentials s.params p))

end Sys2Proof.Machine
end

section
/-! The step around an operation: which operation a placed tick performs, what closing the tick adds, and that every step answers
(R84, R105, R162). -/

namespace Sys2Proof.Machine

/-! ### Closing a tick -/

/-- A receiver's tick that is no reset ends with the front end's writes, any other as the operation left it (R161, R162). -/
theorem closeTick_eq (sel : BitVec 16) (s u : State) :
    closeTick (.tick sel) s u =
      if s.ports.rst = false ∧ s.role = .receiver then { u with frontEnd := s.frontEndAfter } else u := by
  unfold closeTick State.samplesLine
  cases s.ports.rst <;> cases s.role <;> rfl

theorem State.frontEndAfter_eq (s : State) :
    s.frontEndAfter =
      { prevSample := s.ports.rxLevel
        lastChangeTime := if s.ports.rxLevel = s.frontEnd.prevSample then s.frontEnd.lastChangeTime else s.now } := by
  by_cases hlevel : s.ports.rxLevel = s.frontEnd.prevSample <;> simp [State.frontEndAfter, State.edge, hlevel]

/-- A tick performs the operation of its select word, and then the front end samples (R105, R162). -/
theorem step_of_fetch_tick {s a u : State} {i : Instr} (hfetch : s.fetch = (a, .tick a.sel)) (hd : decodeTick a.sel = .ok i)
    (he : exec i a = .next u) :
    step s = .next (if a.ports.rst = false ∧ a.role = .receiver then
      { u with frontEnd :=
          { prevSample := a.ports.rxLevel
            lastChangeTime := if a.ports.rxLevel = a.frontEnd.prevSample then a.frontEnd.lastChangeTime else a.now } }
      else u) := by
  rw [step_of_exec s i u (by rw [hfetch]; exact hd) (by rw [hfetch]; exact he), hfetch, closeTick_eq, State.frontEndAfter_eq]

/-- Settles O7: `step_of_fetch_tick` for the two kinds of ticks; closing the step of a placed symbol or byte adds nothing. -/
theorem stepRunsTheDecodedOperation : Obligations.StepRunsTheDecodedOperation := by
  refine ⟨fun s p rest i u hs hd he => step_of_fetch_tick (s.fetch_tick p rest hs) hd he,
    fun s i u hs hd he => step_of_fetch_tick (s.fetch_free hs) hd he,
    fun s first uu rest i hs hd u he => ?_, fun s offset len b rest i hs hd u he => ?_⟩
  · have hfetch := s.fetch_wire first uu rest hs
    rw [step_of_exec s i u (by rw [hfetch]; exact hd) (by rw [hfetch]; exact he), hfetch]
    rfl
  · have hfetch := s.fetch_byte offset len b rest hs
    rw [step_of_exec s i u (by rw [hfetch]; exact hd) (by rw [hfetch]; exact he), hfetch]
    rfl

/-! ### Every step answers -/

/-- `R.APPLY` hands over the split of the payload (R157). -/
theorem execRApply_of_split {s : State} {a b : List Byte} (h : s.splitPayload = .ok a b) :
    execRApply s = .next (s.applyCredentials a b) := by
  simp [execRApply, h]

/-- Every operation answers a next state, but for the two that need an operand where it does not exist (R153, R157; log 10). -/
theorem exec_next_or_operandless (i : Instr) (s : State) :
    (∃ u, exec i s = .next u) ∨ (i = .rAccept ∧ ∃ k, s.parsed = .err k) ∨ (i = .rApply ∧ s.splitPayload = .err) := by
  cases i
  case rAccept =>
    cases hparse : s.parsed with
    | ok f => exact .inl ⟨_, execRAccept_of_parsed hparse⟩
    | err k => exact .inr (.inl ⟨rfl, k, rfl⟩)
  case rApply =>
    cases hsplit : s.splitPayload with
    | ok a b => exact .inl ⟨_, execRApply_of_split hsplit⟩
    | err => exact .inr (.inr ⟨rfl, rfl⟩)
  all_goals exact .inl ⟨_, rfl⟩

/-- The operation that a state's select fields choose always answers: its operand exists (R76, R84). -/
theorem exec_choice_next (s : State) : ∃ u, exec s.select.choice s = .next u := by
  rcases exec_next_or_operandless s.select.choice s with hnext | ⟨haccept, k, hparse⟩ | ⟨happly, hsplit⟩
  · exact hnext
  · obtain ⟨f, hf⟩ := (ParseResult.bits_eq_zero_iff s.parsed).mp (Select.choice_eq_rAccept haccept)
    exact nomatch hf.symm.trans hparse
  · exact absurd hsplit (s.colonFound_iff.mp (Select.choice_eq_rApply happly))

/-- What a wire interval decodes to returns its actions (R91 to R95). -/
theorem exec_wire_next {P : Params} {first : Bool} {uu : Nat} {i : Instr} (hd : decodeWire P first uu = .ok i) (s : State) :
    ∃ u, exec i s = .next u := by
  unfold decodeWire at hd
  split_ifs at hd <;> cases hd <;> exact ⟨_, rfl⟩

/-- What a frame byte decodes to returns that byte and its actions (R73). -/
theorem exec_byte_next {P : Params} {offset : Nat} {len b : Byte} {i : Instr} (hd : decodeByte P offset len b = .ok i) (s : State) :
    ∃ u, exec i s = .next u := by
  unfold decodeByte at hd
  split_ifs at hd
  iterate 4 (· cases decodeSig_ok hd; exact ⟨_, rfl⟩)
  all_goals cases hd; exact ⟨_, rfl⟩

/-- The operation that a step decodes answers a next state. -/
theorem exec_decoded_next {s : State} {i : Instr} (hd : decode s.params s.fetch.2 = .ok i) : ∃ u, exec i s.fetch.1 = .next u := by
  cases hcode : s.fetch.2 with
  | tick sel =>
    rw [hcode, s.fetch_tick_code sel hcode] at hd
    rw [← State.choice_of_decodeTick hd]
    exact exec_choice_next _
  | wire first uu => rw [hcode] at hd; exact exec_wire_next hd _
  | byte offset len b => rw [hcode] at hd; exact exec_byte_next hd _

/-- Settles O8: a decoded operation answers (`exec_decoded_next`), and a code that stands for none is ignored. -/
theorem stepAlwaysAnswersANextState : Obligations.StepAlwaysAnswersANextState := by
  intro s
  cases hd : decode s.params s.fetch.2 with
  | ok i =>
    obtain ⟨u, he⟩ := exec_decoded_next hd
    exact ⟨_, step_of_exec s i u hd he⟩
  | error e => exact ⟨_, by rw [step, hd]⟩

/-! ### The step of a placed tick -/

/-- What the choice of R84 does in the state it was read from is one of the runs of a tick. -/
theorem tickRun_of_choice {s u : State} (he : exec s.select.choice s = .next u) : TickRun s s.select.choice u :=
  tickRun_of_decode (decodeTick_word _) he

/-- A placed tick is decoded to the choice of R84, performs it, and is closed (R84, R162). -/
theorem step_placed_tick {s : State} {p : Ports} {rest : List Stimulus} (hs : s.stimuli = .tick p :: rest) :
    ∃ u, decode s.params s.fetch.2 = .ok (s.atTick p rest).select.choice ∧
      exec (s.atTick p rest).select.choice (s.atTick p rest) = .next u ∧
      step s = .next (closeTick (.tick (s.atTick p rest).sel) (s.atTick p rest) u) := by
  have hfetch : s.fetch = (s.atTick p rest, .tick (s.atTick p rest).sel) := s.fetch_tick p rest hs
  have hd : decode s.params s.fetch.2 = .ok (s.atTick p rest).select.choice := by
    rw [hfetch]
    exact decodeTick_word _
  obtain ⟨u, he⟩ := exec_choice_next (s.atTick p rest)
  refine ⟨u, hd, he, ?_⟩
  rw [step_of_exec s _ u hd (by rw [hfetch]; exact he), hfetch]

/-- Settles O12: the reset input alone selects `SYS.RESET`, and in a reset tick the front end does not sample. -/
theorem resetTickHasPriority : Obligations.ResetTickHasPriority := by
  intro s p rest hs hrst
  have hchoice : (s.atTick p rest).select.choice = .sysReset := if_pos hrst
  have hreset := step_of_fetch_tick (s.fetch_tick p rest hs) (i := .sysReset) (hchoice ▸ decodeTick_word _) rfl
  rw [hreset, if_neg fun ⟨hno, _⟩ => absurd (hno.symm.trans hrst) nofun]
  rfl

/-! ### What a TICK operation leaves alone -/

/-- Every operation of a select word is one of the operation map (R77). -/
theorem decodeTick_mem {sel : BitVec 16} {i : Instr} (hd : decodeTick sel = .ok i) : i ∈ tickTable.map TickRow.op := by
  unfold decodeTick at hd
  split at hd
  next r hr => cases hd; exact List.mem_map_of_mem (List.mem_of_find?_eq_some hr)
  next => cases hd

/-- The fields that no TICK operation but reset writes: the front end's, the role, the parameters and the record of inputs (R162). -/
def SameSurroundings (s t : State) : Prop :=
  t.frontEnd = s.frontEnd ∧ t.role = s.role ∧ t.params = s.params ∧ SameInputs s t

theorem SameSurroundings.endSession (s : State) (k : ErrorKind) : SameSurroundings s (s.endSession k) := by
  rw [State.endSession_eq]
  exact ⟨rfl, rfl, rfl, rfl, rfl, rfl, rfl⟩

/-- Settles O9: the operations of the operation map, one by one, wherever they are performed. -/
theorem tickOperationsLeaveFrontEndAndRole : Obligations.TickOperationsLeaveFrontEndAndRole := by
  intro sel i s t hd hreset he
  have hmem := decodeTick_mem hd
  change SameSurroundings s t
  cases i
  case sysReset => exact absurd rfl hreset
  case rDiscard | rRejectSig | rRejectTrunc | rRejectChk => cases he; exact .endSession s _
  case rAccept => obtain ⟨f, _, rfl⟩ := execRAccept_next he; exact ⟨rfl, rfl, rfl, rfl, rfl, rfl, rfl⟩
  case rApply => obtain ⟨a, b, _, rfl⟩ := execRApply_next he; exact ⟨rfl, rfl, rfl, rfl, rfl, rfl, rfl⟩
  case sWait | sTrigger | sTxtick | sTxdone | sCool | sTimeout | sHalt | decSeed | decCal | decReject | decBit | rQuiet | rInframe
      | rCrederr | rDone | rRsvd => cases he; exact ⟨rfl, rfl, rfl, rfl, rfl, rfl, rfl⟩
  all_goals simp [tickTable] at hmem

end Sys2Proof.Machine
end

section
/-! The role operations performed by themselves: what each writes, what it leaves, and the bytes it copies (R142 to R160). -/

namespace Sys2Proof.Machine

/-! ### The operations that write nothing, and the Sender's line and timeout -/

/-- Settles O13: each of the operations answers its own state. -/
theorem quietOperationsWriteNothing : Obligations.QuietOperationsWriteNothing := by
  intro i hi s
  simp only [List.mem_cons, List.not_mem_nil, or_false] at hi
  rcases hi with rfl | rfl | rfl | rfl | rfl | rfl | rfl | rfl <;> rfl

/-- Settles O15: both operations are `State.driveLine`. -/
theorem transmitTickDrivesTheLine : Obligations.TransmitTickDrivesTheLine := by
  intro i hi s
  have hexec : exec i s = .next s.driveLine := by
    simp only [List.mem_cons, List.not_mem_nil, or_false] at hi
    rcases hi with rfl | rfl <;> rfl
  exact ⟨_, hexec, rfl, rfl, rfl, rfl, .of_mem_eq rfl⟩

/-- Settles O16: each register of `S.TXDONE`. -/
theorem transmissionEndsInCooldown : Obligations.TransmissionEndsInCooldown := fun _ =>
  ⟨_, rfl, rfl, rfl, rfl, rfl, rfl, .of_mem_eq rfl⟩

/-- Settles O17: each register of `S.TIMEOUT`; code 3 is a Sender's terminal state. -/
theorem timeoutEndsTheSender : Obligations.TimeoutEndsTheSender := fun _ =>
  ⟨_, rfl, rfl, rfl, rfl, fun hrole => (State.done_iff _).mpr (.inl ⟨hrole, rfl⟩), rfl, .of_mem_eq rfl⟩

/-! ### The frame that a trigger transmits -/

theorem payloadByte_of_getElem? {bytes : List Byte} {k : Nat} {b : Byte} (i : Nat) (h : bytes[k]? = some b) :
    payloadByte bytes i k = b := by
  induction bytes generalizing k with
  | nil => simp at h
  | cons c rest ih =>
    cases k with
    | zero => simpa [payloadByte] using h
    | succ k => exact ih (by simpa using h)

theorem payloadFrom_getElem? (bytes : List Byte) {n k : Nat} (i : Nat) (h : k < n) :
    (payloadFrom bytes i n)[k]? = some (payloadByte bytes (i + k) (i + k)) := by
  induction n generalizing i k with
  | zero => omega
  | succ n ih =>
    cases k with
    | zero => rfl
    | succ k => rw [payloadFrom, List.getElem?_cons_succ, ih (i + 1) (by omega), Nat.add_right_comm, Nat.add_assoc]

/-- The latched payload has every presented byte below `tx_len` (R143). -/
theorem payloadOf_getElem? (p : Ports) {i : Nat} {b : Byte} (hi : i < p.txLen.toNat) (hb : p.txPayload[i]? = some b) :
    (payloadOf p)[i]? = some b := by
  rw [payloadOf, payloadFrom_getElem? _ 0 hi, Nat.zero_add, payloadByte_of_getElem? i hb]

/-- The transmitted frame: the signature, `tx_len`, the payload, its checksum (R127, R128, R143). -/
theorem State.frameToSend_eq (s : State) :
    s.frameToSend =
      s.params.sig ++ [s.ports.txLen] ++ payloadOf s.ports ++ [xorBytes (payloadOf s.ports)] := by
  simp [State.frameToSend, serialize, buildFrame, payloadOf_length]

/-- A transmission begins with its start pulse, away from the idle level (R97). -/
theorem levelAt_zero (P : Params) (bytes : List Byte) (h : 0 < P.tHalf) : levelAt P bytes 0 = !P.idleLevel := by
  have hstart := segments_getElem?_start P bytes
  refine levelIn_of_getElem? P _ 0 0 _ hstart (Nat.le_refl 0) ?_
  rw [List.take_add_one, hstart]
  exact h

/-- The latched frame reads back from its buffer (R143). -/
theorem State.frameToSend_memRead (s : State) :
    (s.mem.copyIn .txFrame s.frameToSend).memRead .txFrame 0 (BitVec.ofNat 9 (s.ports.txLen.toNat + 6)).toNat = s.frameToSend := by
  rw [frameLen_toNat, ← s.frameToSend_length]
  exact Memory.memRead_copyIn _ _ _

/-- Settles O14: the buffer and its length hold exactly the frame to send, whose waveform begins with the start pulse. -/
theorem triggerLatchesAndStartsTheFrame : Obligations.TriggerLatchesAndStartsTheFrame := by
  intro s
  have hbytes := s.frameToSend_memRead
  refine ⟨_, rfl, rfl, frameLen_toNat _, rfl, ?_, levelAt_zero _ _, hbytes.trans s.frameToSend_eq, payloadOf_length _,
    fun i b => payloadOf_getElem? s.ports, rfl, fun name i hout => ?_⟩
  · exact congrArg (fun bs => levelAt s.params bs 0) hbytes.symm
  · exact s.mem.readByte_copyIn_other _ _ _ _ (by rwa [s.frameToSend_length])

/-! ### The end of a session -/

/-- Settles O45: each operation is `State.endSession` of its error kind. -/
theorem rejectingOperationsRaiseAndListen : Obligations.RejectingOperationsRaiseAndListen := by
  intro i k code hi s
  have hkind : ∃ e : ErrorKind, exec i s = .next (s.endSession e) ∧ e.code = k ∧ k.bits = code := by
    simp only [List.mem_cons, List.not_mem_nil, or_false, Prod.mk.injEq] at hi
    rcases hi with ⟨rfl, rfl, rfl⟩ | ⟨rfl, rfl, rfl⟩ | ⟨rfl, rfl, rfl⟩ | ⟨rfl, rfl, rfl⟩ <;> exact ⟨_, rfl, rfl, rfl⟩
  obtain ⟨e, hexec, hcode, hbits⟩ := hkind
  obtain ⟨houtcome, hstrobe, hst, hsession⟩ := s.endSession_spec e
  have hk : (s.endSession e).outcome = k := houtcome.trans hcode
  have hframe : s.endSession e =
      { s with
        outcome := (s.endSession e).outcome
        outcomeStrobe := (s.endSession e).outcomeStrobe
        session := (s.endSession e).session
        st := (s.endSession e).st } := by
    rw [State.endSession_eq]
  exact ⟨_, hexec, hk, hk ▸ hbits, hstrobe, hst, fun hsame => hsession.trans (if_neg fun ⟨_, hne⟩ => hne hsame),
    fun hne => hsession.trans (if_pos ⟨hst, hne⟩), hframe, .of_mem_eq (s.endSession_mem e)⟩

/-- Settles O48: each register of `R.CREDERR`. -/
theorem missingColonIsACredentialError : Obligations.MissingColonIsACredentialError := fun _ =>
  ⟨_, rfl, rfl, rfl, rfl, rfl, rfl, rfl, rfl, rfl, .of_mem_eq rfl⟩

/-! ### The accepted frame and the credentials -/

/-- Settles O46: `State.acceptFrame` of the parsed frame, whose payload has the length it declares. -/
theorem acceptTakesTheFrame : Obligations.AcceptTakesTheFrame := by
  intro s f hf
  refine ⟨_, execRAccept_of_parsed hf, rfl, rfl, rfl, State.acceptFrame_framePayloadBytes hf, rfl, rfl, rfl, rfl, rfl, rfl,
    fun name i hout => ?_⟩
  exact s.mem.readByte_copyIn_other _ _ _ _ (by rwa [parseFrame_payload_length hf])

/-- The credentials read back from their buffers (R157). -/
theorem State.applyCredentials_bytes (s : State) {a b : List Byte} (ha : a.length < 256) (hb : b.length < 256) :
    (s.applyCredentials a b).ssidBytes = a ∧ (s.applyCredentials a b).passwordBytes = b := by
  unfold State.ssidBytes State.passwordBytes
  simp only [State.applyCredentials_mem, State.applyCredentials_cred, byteLen_toNat ha, byteLen_toNat hb]
  refine ⟨?_, Memory.memRead_copyIn _ _ _⟩
  rw [Memory.memRead_copyIn_other _ _ _ _ _ _ (by decide : BufferName.ssid ≠ .password)]
  exact Memory.memRead_copyIn _ _ _

/-- Settles O47: `State.applyCredentials` of the split, whose parts are shorter than the payload. -/
theorem applyHandsTheCredentialsOver : Obligations.ApplyHandsTheCredentialsOver := by
  intro s a b hpayload hcolon
  have hsplit : s.splitPayload = .ok a b := by
    rw [State.splitPayload, hpayload, List.append_assoc]
    exact splitCredentials_append_colon _ b hcolon
  have hlen := State.splitPayload_length hsplit
  have hbyte := s.frame.len.isLt
  have ha : a.length < 256 := by omega
  have hb : b.length < 256 := by omega
  obtain ⟨hssid, hpassword⟩ := s.applyCredentials_bytes ha hb
  refine ⟨_, execRApply_of_split hsplit, rfl, byteLen_toNat ha, byteLen_toNat hb, hssid, hpassword, rfl, rfl,
    fun hrole => (State.done_iff _).mpr (.inr ⟨hrole, (by decide : rFinished.getLsbD 1 = true)⟩), rfl, fun name i hnossid hnopassword => ?_⟩
  rw [State.applyCredentials_mem, Memory.readByte_copyIn_other _ _ _ _ _ hnopassword]
  exact s.mem.readByte_copyIn_other _ _ _ _ hnossid

end Sys2Proof.Machine
end

section
/-! The transition tables of the two roles, row by row, and what they imply: terminal states, a Sender that only advances, credentials
that only `R.APPLY` writes (R141, R149, R163). -/

namespace Sys2Proof.Machine

/-! ### Where an operation leads -/

/-- The role state that a tick's operation leaves, of the one it is performed in: the last column of R141 and R149. -/
def stAfter (st : BitVec 2) : Instr → BitVec 2
  | .sysReset | .rDiscard | .rRejectSig | .rRejectTrunc | .rRejectChk | .rCrederr => 0#2
  | .sTrigger | .rAccept => 1#2
  | .sTxdone | .rApply => 2#2
  | .sTimeout => 3#2
  | _ => st

theorem stAfter_quiet : ∀ i ∈ quietOperations, ∀ st, stAfter st i = st := by decide

theorem stAfter_sessionEnding : ∀ e ∈ sessionEndings, ∀ st, stAfter st e.1 = rListening := by decide

theorem TickRun.st {s u : State} {i : Instr} (h : TickRun s i u) : u.st = stAfter s.st i := by
  cases h with
  | quiet hi => exact (stAfter_quiet i hi s.st).symm
  | @endSession _ k hi => rw [State.endSession_eq, stAfter_sessionEnding (i, k) hi]
  | _ => rfl

/-- A placed tick without reset keeps the role, performs the choice of R84, and goes where that operation leads. -/
theorem step_placed_tick_row {s : State} {p : Ports} {rest : List Stimulus} (hs : s.stimuli = .tick p :: rest)
    (hrst : p.rst = false) :
    ∃ t, step s = .next t ∧ t.role = s.role ∧
      ∀ {i : Instr} {st : BitVec 2}, s.st = st → (s.atTick p rest).select.choice = i →
        decode s.params s.fetch.2 = .ok i ∧ t.st = stAfter st i := by
  obtain ⟨u, hd, he, hstep⟩ := step_placed_tick hs
  have hrun := tickRun_of_choice he
  obtain ⟨-, hrole, hst, -⟩ := closeTick_registers (.tick (s.atTick p rest).sel) (s.atTick p rest) u
  refine ⟨_, hstep, hrole.trans ?_, ?_⟩
  · exact hrun.role.resolve_right fun ⟨hreset, _⟩ => absurd (hrst.symm.trans hreset) nofun
  · rintro i st rfl rfl
    exact ⟨hd, hst.trans hrun.st⟩

/-! ### The conditions of the tables, at a placed tick -/

theorem State.atTick_txDone_iff (s : State) (p : Ports) (rest : List Stimulus) :
    (s.atTick p rest).select.txDone = true ↔ total s.params s.txFrameBytes ≤ elapsed s.params p.now s.tx.startTime := by
  rw [← elapsed_stamp_left s.params p.now]
  exact decide_eq_true_iff

theorem State.atTick_windowElapsed_iff (s : State) (p : Ports) (rest : List Stimulus) :
    (s.atTick p rest).select.windowElapsed = true ↔ s.params.tSTimeout ≤ elapsed s.params p.now s.tx.startTime := by
  rw [← elapsed_stamp_left s.params p.now]
  exact decide_eq_true_iff

theorem State.atTick_belowNoise_iff (s : State) (p : Ports) (rest : List Stimulus) :
    (s.atTick p rest).select.belowNoise = true ↔ elapsed s.params p.now s.session.lastEdgeTime < s.params.tNoise := by
  rw [← elapsed_stamp_left s.params p.now]
  exact decide_eq_true_iff

theorem State.atTick_colonFound_iff (s : State) (p : Ports) (rest : List Stimulus) :
    (s.atTick p rest).select.colonFound = true ↔ s.params.colon ∈ s.framePayloadBytes := by
  have hsplit := (s.atTick p rest).colonFound_iff.trans (not_congr (splitCredentials_err_iff _ _))
  exact hsplit.trans not_not

/-! ### The tables as trees -/

/-- Without reset the tree of R84 takes a Sender's branch. -/
theorem Select.choice_sender {x : Select} (hrst : x.rst = false) (hrole : x.role = false) : x.choice = x.senderChoice := by
  simp [Select.choice, hrst, hrole]

/-- Without reset the tree of R84 takes a Receiver's branch. -/
theorem Select.choice_receiver {x : Select} (hrst : x.rst = false) (hrole : x.role = true) :
    x.choice =
      if x.st = rListening then x.listeningChoice
      else if x.st = rApplying then (if x.colonFound then .rApply else .rCrederr)
      else if x.st = rFinished then .rDone
      else .rRsvd := by
  simp [Select.choice, hrst, hrole]

/-- The operation of a Sender's placed tick, in the conditions of R141. -/
theorem State.atTick_choice_sender {s : State} {p : Ports} (rest : List Stimulus) (hrole : s.role = .sender) (hrst : p.rst = false) :
    (s.atTick p rest).select.choice =
      if s.st = 0#2 then (if p.trigger then .sTrigger else .sWait)
      else if s.st = 1#2 then
        (if total s.params s.txFrameBytes ≤ elapsed s.params p.now s.tx.startTime then .sTxdone else .sTxtick)
      else if s.st = 2#2 then (if s.params.tSTimeout ≤ elapsed s.params p.now s.tx.startTime then .sTimeout else .sCool)
      else .sHalt := by
  simp only [← s.atTick_txDone_iff p rest, ← s.atTick_windowElapsed_iff p rest]
  exact Select.choice_sender (x := (s.atTick p rest).select) hrst (congrArg Role.bit hrole)

/-- The operation of a Receiver's placed tick, in the conditions of R149 outside `R_LISTENING`. -/
theorem State.atTick_choice_receiver {s : State} {p : Ports} (rest : List Stimulus) (hrole : s.role = .receiver)
    (hrst : p.rst = false) :
    (s.atTick p rest).select.choice =
      if s.st = 0#2 then (s.atTick p rest).select.listeningChoice
      else if s.st = 1#2 then (if s.params.colon ∈ s.framePayloadBytes then .rApply else .rCrederr)
      else if s.st = 2#2 then .rDone
      else .rRsvd := by
  simp only [← s.atTick_colonFound_iff p rest]
  exact Select.choice_receiver (x := (s.atTick p rest).select) hrst (congrArg Role.bit hrole)

/-- An expired session past the gate takes the arm of its parse result (R114). -/
theorem Select.listeningChoice_idleArm {x : Select} (hseed : x.seeded = true) (hidle : x.idleExpired = true) (hgate : x.gateOk = true) :
    x.listeningChoice = idleArm x.po := by
  simp [Select.listeningChoice, hseed, hidle, hgate]

/-! ### The tables -/

/-- Settles O18: the rows are the leaves of `State.atTick_choice_sender`. -/
theorem senderFollowsItsTransitionTable : Obligations.SenderFollowsItsTransitionTable := by
  intro s p rest hs hrole hrst
  obtain ⟨t, hstep, hkeeps, row⟩ := step_placed_tick_row hs hrst
  rw [State.atTick_choice_sender rest hrole hrst] at row
  exact ⟨t, hstep, hkeeps.trans hrole,
    fun hst htrigger => row hst (by simp [hst, htrigger]),
    fun hst htrigger => row hst (by simp [hst, htrigger]),
    fun hst hearly => row hst (by simp [hst, hearly]),
    fun hst hdone => row hst (by simp [hst, hdone]),
    fun hst hearly => row hst (by simp [hst, hearly]),
    fun hst hover => row hst (by simp [hst, hover]),
    fun hst => row hst (by simp [hst])⟩

/-- Settles O50: outside `R_LISTENING` the rows are the leaves of `State.atTick_choice_receiver`, in it those of
`Select.listeningChoice`, with the parse result's arm at the end. -/
theorem receiverFollowsItsTransitionTable : Obligations.ReceiverFollowsItsTransitionTable := by
  intro s p rest edge idle gate hs hrole hrst hedge hidle hgate
  obtain ⟨t, hstep, hkeeps, row⟩ := step_placed_tick_row hs hrst
  rw [State.atTick_choice_receiver rest hrole hrst] at row
  have leaf {i : Instr} (hst : s.st = 0#2) (hi : (s.atTick p rest).select.listeningChoice = i) :
      decode s.params s.fetch.2 = .ok i ∧ t.st = stAfter 0#2 i := row hst ((if_pos hst).trans hi)
  have xseed : (s.atTick p rest).select.seeded = s.session.seeded := rfl
  have xcal : (s.atTick p rest).select.calibrating = s.session.calibrating := rfl
  have xedge : (s.atTick p rest).select.edge = true ↔ edge := (s.atTick_edge_iff p rest).trans hedge.symm
  have xidle : (s.atTick p rest).select.idleExpired = true ↔ idle := (s.atTick_idleExpired_iff p rest).trans hidle.symm
  have xgate : (s.atTick p rest).select.gateOk = true ↔ gate := (Session.gateOk_iff _ _).trans hgate.symm
  have xnoise := s.atTick_belowNoise_iff p rest
  have arm {r : ParseResult} (hst : s.st = 0#2) (hseed : s.session.seeded = true) (hi : idle) (hg : gate)
      (hparse : parseFrame s.params s.closedBytes = r) :
      decode s.params s.fetch.2 = .ok (idleArm r.bits) ∧ t.st = stAfter 0#2 (idleArm r.bits) :=
    leaf hst ((Select.listeningChoice_idleArm hseed (xidle.mpr hi) (xgate.mpr hg)).trans (hparse ▸ rfl))
  refine ⟨t, hstep, hkeeps.trans hrole, fun hst => ⟨?quiet, ?seed, ?inframe, ?cal, ?reject, ?bit, ?discard, ?_, ?_, ?_, ?_⟩,
    ?_, ?_, ?_, ?_⟩
  case quiet => exact fun hseed hno => leaf hst (by simp [Select.listeningChoice, xseed, xedge, hseed, hno])
  case seed => exact fun hseed hyes => leaf hst (by simp [Select.listeningChoice, xseed, xedge, hseed, hyes])
  case inframe => exact fun hseed hopen hno => leaf hst (by simp [Select.listeningChoice, xseed, xidle, xedge, hseed, hopen, hno])
  case cal =>
    exact fun hseed hopen hyes hcal =>
      leaf hst (by simp [Select.listeningChoice, xseed, xidle, xedge, xcal, hseed, hopen, hyes, hcal])
  case reject =>
    exact fun hseed hopen hyes hcal hnoise =>
      leaf hst (by simp [Select.listeningChoice, xseed, xidle, xedge, xcal, xnoise, hseed, hopen, hyes, hcal, hnoise])
  case bit =>
    exact fun hseed hopen hyes hcal hlong =>
      leaf hst (by simp [Select.listeningChoice, xseed, xidle, xedge, xcal, xnoise, hseed, hopen, hyes, hcal, hlong])
  case discard => exact fun hseed hi hno => leaf hst (by simp [Select.listeningChoice, xseed, xidle, xgate, hseed, hi, hno])
  · exact arm hst
  · exact arm hst
  · exact arm hst
  · exact fun f => arm hst
  · exact fun hst hcolon => row hst (by simp [hst, hcolon])
  · exact fun hst hcolon => row hst (by simp [hst, hcolon])
  · exact fun hst => row hst (by simp [hst])
  · exact fun hst => row hst (by simp [hst])

/-! ### A Sender's line input -/

/-- A Sender's tick carries another line level through unchanged: `S_IDLE` reads the trigger, every other state only the time
(R142, R180). -/
theorem exec_senderChoice_setLine {s t : State} (lvl : Level) (h : exec s.select.senderChoice s = .next t) :
    exec ({ s with ports := { s.ports with rxLevel := lvl } } : State).select.senderChoice
      { s with ports := { s.ports with rxLevel := lvl } } = .next { t with ports := { s.ports with rxLevel := lvl } } := by
  by_cases hst : s.st = sIdle
  · have hchoice : ∀ {q : Ports}, ({ s with ports := q } : State).select.senderChoice = if q.trigger then .sTrigger else .sWait :=
      fun {q} => if_pos hst
    rw [hchoice (q := s.ports)] at h
    rw [hchoice]
    cases htrigger : s.ports.trigger <;> rw [htrigger] at h <;> cases h <;> rfl
  · exact exec_senderChoice_setPorts h hst rfl

/-- Settles O19: the two ticks start in states that differ only in the line level. -/
theorem senderIgnoresItsLineInput : Obligations.SenderIgnoresItsLineInput := by
  intro s t p lvl rest hrole hrst hs h
  rw [step_sender (s.fetch_tick p rest hs) hrole hrst] at h
  refine (step_sender (State.fetch_tick _ _ rest rfl) ?_ ?_).trans ?_
  · exact hrole
  · exact hrst
  · exact exec_senderChoice_setLine lvl h

/-! ### Terminal states -/

/-- The operation of a device that is done writes nothing (R148, R159, R160). -/
theorem State.atTick_choice_of_done {s : State} {p : Ports} (rest : List Stimulus) (hdone : s.done = true) (hrst : p.rst = false) :
    (s.atTick p rest).select.choice ∈ quietOperations := by
  rcases s.done_iff.mp hdone with ⟨hrole, hst⟩ | ⟨hrole, hbit⟩
  · have hchoice : (s.atTick p rest).select.choice = .sHalt := by simp [State.atTick_choice_sender rest hrole hrst, hst]
    rw [hchoice]
    decide
  · rw [State.atTick_choice_receiver rest hrole hrst]
    rcases twoBit_cases s.st with hst | hst | hst | hst <;> rw [hst] at hbit ⊢
    · exact absurd hbit (by decide)
    · exact absurd hbit (by decide)
    · exact (by decide : Instr.rDone ∈ quietOperations)
    · exact (by decide : Instr.rRsvd ∈ quietOperations)

/-- Settles O52: the operation writes nothing, so only fetching the inputs and closing the tick do. -/
theorem terminalStatesAreLeftOnlyByReset : Obligations.TerminalStatesAreLeftOnlyByReset := by
  intro s t p rest hdone hs hrst h
  obtain ⟨u, _, he, hstep⟩ := step_placed_tick hs
  have hquiet := quietOperationsWriteNothing _ (State.atTick_choice_of_done rest hdone hrst) (s.atTick p rest)
  obtain rfl := Host.Outcome.next.inj (hquiet.symm.trans he)
  obtain rfl := Host.Outcome.next.inj (h.symm.trans hstep)
  rw [closeTick_eq]
  split_ifs with hsample
  · obtain ⟨_, hrole⟩ := hsample
    exact ⟨hdone, rfl, rfl, fun hsender => absurd (hsender.symm.trans hrole) nofun, .of_mem_eq rfl⟩
  · exact ⟨hdone, rfl, rfl, fun _ => rfl, .of_mem_eq rfl⟩

/-! ### Properties of the role machines -/

/-- A Sender's operation keeps its state or goes to the next one (R163 item 1). -/
theorem TickRun.sender_st {s u : State} {i : Instr} (h : TickRun s i u) (hrole : s.role = .sender) (hrst : s.ports.rst = false) :
    s.st.toNat ≤ u.st.toNat ∧ u.st.toNat ≤ s.st.toNat + 1 := by
  have hnot : s.role ≠ .receiver := by rw [hrole]; nofun
  rw [h.st]
  cases h with
  | reset hreset => exact absurd (hrst.symm.trans hreset) nofun
  | quiet hi => rw [stAfter_quiet i hi]; exact ⟨Nat.le_refl _, Nat.le_succ _⟩
  | trigger _ hst | drive _ hst | transmitted _ hst | timeout _ hst => rw [hst]; decide
  | seed hrecv | calibrate hrecv | bit hrecv | endSession _ hrecv | accept hrecv | apply hrecv | credentialError hrecv =>
    exact absurd hrecv hnot

/-- The credential registers and their cells, which only `R.APPLY` writes (R32, R157). -/
def SameCredentials (s t : State) : Prop := t.cred = s.cred ∧ t.mem.ssid = s.mem.ssid ∧ t.mem.password = s.mem.password

/-- An operation that is no reset leaves the credentials alone, or hands over the split payload (R157, R163). -/
theorem TickRun.credentials {s u : State} {i : Instr} (h : TickRun s i u) (hrst : s.ports.rst = false) :
    SameCredentials s u ∨
      ∃ a b, s.role = .receiver ∧ s.st = rApplying ∧ s.splitPayload = .ok a b ∧ u = s.applyCredentials a b := by
  cases h with
  | reset hreset => exact absurd (hrst.symm.trans hreset) nofun
  | @apply a b hrole hst hsplit => exact .inr ⟨a, b, hrole, hst, hsplit, rfl⟩
  | endSession => rw [State.endSession_eq]; exact .inl ⟨rfl, rfl, rfl⟩
  | _ => exact .inl ⟨rfl, rfl, rfl⟩

theorem SameCredentials.unchanged {s t : State} (h : SameCredentials s t) :
    ¬ (t.cred ≠ s.cred ∨ (∃ i, t.mem.readByte .ssid i ≠ s.mem.readByte .ssid i) ∨
      (∃ i, t.mem.readByte .password i ≠ s.mem.readByte .password i)) := by
  obtain ⟨hcred, hssid, hpassword⟩ := h
  rintro (hne | ⟨i, hne⟩ | ⟨i, hne⟩)
  · exact hne hcred
  · exact hne (congrArg (fun cs => Cells.read .ssid cs i) hssid)
  · exact hne (congrArg (fun cs => Cells.read .password cs i) hpassword)

/-- A payload that splits has a colon (R131). -/
theorem State.colon_mem_of_split {s : State} {a b : List Byte} (h : s.splitPayload = .ok a b) : s.params.colon ∈ s.framePayloadBytes :=
  not_not.mp fun hno => nomatch h.symm.trans ((splitCredentials_err_iff _ _).mpr hno)

/-- Settles O57: `TickRun.sender_st`, `TickRun.credentials`, and what the raising operations leave. -/
theorem roleMachineProperties : Obligations.RoleMachineProperties := by
  refine ⟨fun s t p rest hs hrst h => ?_, fun i hi s t he => ?_⟩
  · obtain ⟨u, _, he, hstep⟩ := step_placed_tick hs
    have hrun := tickRun_of_choice he
    obtain rfl := Host.Outcome.next.inj (h.symm.trans hstep)
    obtain ⟨-, -, hst, -, -, -, hcred, -, hmem, -⟩ := closeTick_registers (.tick (s.atTick p rest).sel) (s.atTick p rest) u
    rw [hst, hcred, hmem]
    refine ⟨fun hrole => hrun.sender_st hrole hrst, fun hchanged => ?_⟩
    rcases hrun.credentials hrst with hsame | ⟨a, b, hrole, happly, hsplit, rfl⟩
    · exact absurd hchanged hsame.unchanged
    · exact ⟨hrole, happly, State.colon_mem_of_split hsplit, rfl, rfl⟩
  · simp only [List.mem_cons, List.not_mem_nil, or_false] at hi
    rcases hi with rfl | rfl | rfl | rfl | rfl <;> cases he
    iterate 4 (· rw [State.endSession_eq]; exact ⟨rfl, rfl, rfl, rfl⟩)
    · exact ⟨rfl, rfl, rfl, rfl⟩

end Sys2Proof.Machine
end

section
/-! A Receiver's tick reads none of the Sender's inputs, neither in the branch that selects its operation nor in the operation, and
leaves the transmit registers alone (R180, R194). -/

namespace Sys2Proof.Machine

/-! ### A Receiver's operation -/

/-- Each operation that ends a session without a frame raises its error kind (R152, R154, R155, R156). -/
theorem exec_sessionEnding {i : Instr} {k : ErrorKind} (hi : (i, k) ∈ sessionEndings) (s : State) :
    exec i s = .next (s.endSession k) := by
  simp only [sessionEndings, List.mem_cons, List.not_mem_nil, or_false, Prod.mk.injEq] at hi
  rcases hi with ⟨rfl, rfl⟩ | ⟨rfl, rfl⟩ | ⟨rfl, rfl⟩ | ⟨rfl, rfl⟩ <;> rfl

/-- A tick's operation keeps the sampled inputs, a reset's too (R162; log 14). -/
theorem TickRun.ports {s u : State} {i : Instr} (h : TickRun s i u) : u.ports = s.ports := by
  cases h with
  | endSession => rw [State.endSession_eq]
  | _ => rfl

/-- A Receiver's operation that is no reset leaves the transmit registers alone (R180). -/
theorem TickRun.receiver_tx {s u : State} {i : Instr} (h : TickRun s i u) (hrole : s.role = .receiver) (hrst : s.ports.rst = false) :
    u.tx = s.tx := by
  have hnot : s.role ≠ .sender := by rw [hrole]; nofun
  cases h with
  | reset hreset => exact absurd (hrst.symm.trans hreset) nofun
  | trigger hsend | drive hsend | transmitted hsend | timeout hsend => exact absurd hsend hnot
  | endSession => rw [State.endSession_eq]
  | _ => rfl

/-! ### Other trigger and payload ports -/

/-- The state with other trigger and payload ports sampled, the ones a Sender reads (R40, R143). -/
def State.withTransmit (s : State) (trig : Bool) (payload : List Byte) (len : Byte) : State :=
  { s with ports := { s.ports with trigger := trig, txPayload := payload, txLen := len } }

section
variable (trig : Bool) (payload : List Byte) (len : Byte)

/-- Of the select fields the trigger's bit alone is a port of the Sender's (R76). -/
theorem State.select_withTransmit (s : State) :
    (s.withTransmit trig payload len).select = { s.select with trigger := trig } := rfl

/-- The Receiver's branch of R84 does not read the trigger (R77, R149). -/
theorem Select.choice_setTrigger {x : Select} (hrole : x.role = true) :
    ({ x with trigger := trig } : Select).choice = x.choice := by
  simp only [Select.choice, hrole, if_true]
  rfl

/-- A Receiver's operation is selected without the Sender's inputs (R149, R194). -/
theorem State.choice_withTransmit {s : State} (hrole : s.role = .receiver) :
    (s.withTransmit trig payload len).select.choice = s.select.choice := by
  rw [State.select_withTransmit]
  exact Select.choice_setTrigger trig (congrArg Role.bit hrole)

/-- The end of a session reads the line and the time (R114). -/
theorem State.endSession_withTransmit (s : State) (k : ErrorKind) :
    (s.withTransmit trig payload len).endSession k = (s.endSession k).withTransmit trig payload len := by
  rw [State.endSession_eq, State.endSession_eq]
  rfl

/-- A Receiver's operation that is no reset carries other trigger and payload ports through unchanged (R194). -/
theorem TickRun.exec_withTransmit {s u : State} {i : Instr} (h : TickRun s i u) (hrole : s.role = .receiver)
    (hrst : s.ports.rst = false) : exec i (s.withTransmit trig payload len) = .next (u.withTransmit trig payload len) := by
  have hnot : s.role ≠ .sender := by rw [hrole]; nofun
  cases h with
  | reset hreset => exact absurd (hrst.symm.trans hreset) nofun
  | trigger hsend | drive hsend | transmitted hsend | timeout hsend => exact absurd hsend hnot
  | quiet hi => exact quietOperationsWriteNothing i hi _
  | endSession hi => rw [exec_sessionEnding hi, State.endSession_withTransmit]
  | accept _ _ hf => exact execRAccept_of_parsed hf
  | apply _ _ hsplit => exact execRApply_of_split hsplit
  | seed | calibrate | bit | credentialError => rfl

/-- The front end samples the line at the time of the tick, whatever the Sender's inputs are (R105). -/
theorem closeTick_withTransmit (sel sel' : BitVec 16) (s u : State) :
    closeTick (.tick sel') (s.withTransmit trig payload len) (u.withTransmit trig payload len) =
      (closeTick (.tick sel) s u).withTransmit trig payload len := by
  rw [closeTick_eq, closeTick_eq]
  by_cases hsample : s.ports.rst = false ∧ s.role = .receiver
  · rw [if_pos hsample]
    exact if_pos hsample
  · rw [if_neg hsample]
    exact if_neg hsample

end

/-! ### A Receiver's tick -/

/-- Settles O51: both ticks perform the same operation, in states that differ only in the Sender's inputs. -/
theorem receiverIgnoresTheSendersInputs : Obligations.ReceiverIgnoresTheSendersInputs := by
  intro s t p trig payload len rest hrole hrst hs h
  obtain ⟨u, _, he, hstep⟩ := step_placed_tick hs
  have hrun := tickRun_of_choice he
  obtain rfl := Host.Outcome.next.inj (h.symm.trans hstep)
  obtain ⟨-, -, -, -, -, htx, -, -, -, -, hports, -⟩ :=
    closeTick_registers (.tick (s.atTick p rest).sel) (s.atTick p rest) u
  refine ⟨htx.trans (hrun.receiver_tx hrole hrst), ?_⟩
  have hchoice : ((s.atTick p rest).withTransmit trig payload len).select.choice = (s.atTick p rest).select.choice :=
    State.choice_withTransmit trig payload len hrole
  obtain ⟨v, _, hev, hstep'⟩ := step_placed_tick
    (s := { s with stimuli := .tick { p with trigger := trig, txPayload := payload, txLen := len } :: rest }) rfl
  have hother := hrun.exec_withTransmit trig payload len hrole hrst
  obtain rfl : u.withTransmit trig payload len = v :=
    Host.Outcome.next.inj (hother.symm.trans ((congrArg (exec · _) hchoice.symm).trans hev))
  refine hstep'.trans (congrArg Host.Outcome.next ?_)
  refine (closeTick_withTransmit trig payload len (s.atTick p rest).sel _ (s.atTick p rest) u).trans ?_
  unfold State.withTransmit
  rw [hports, hrun.ports]
  rfl

end Sys2Proof.Machine
end

section
/-! Two devices on the ideal channel: each makes its own tick, and ends it in its own role (R184; log 21). -/

namespace Sys2Proof.Machine

/-- The role after a tick: the strap's at a reset, else as before (R16, R140, R161). -/
theorem tick_role {s t : State} {p : Ports} (h : tick s p = .next t) : t.role = if p.rst then p.roleStrap else s.role := by
  cases hrst : p.rst with
  | true =>
    obtain rfl := Host.Outcome.next.inj (h.symm.trans (resetTickHasPriority _ p s.stimuli rfl hrst))
    rfl
  | false =>
    obtain ⟨t', hstep, hrole, -⟩ := step_placed_tick_row (s := { s with stimuli := .tick p :: s.stimuli }) rfl hrst
    obtain rfl := Host.Outcome.next.inj (h.symm.trans hstep)
    exact hrole

/-- A device whose strap is tied to its role has that role after a tick, if it had it before or the tick resets it (log 21). -/
theorem tick_role_of_strap {s t : State} {p : Ports} (h : tick s p = .next t) (hrole : s.role = p.roleStrap ∨ p.rst = true) :
    t.role = p.roleStrap := by
  rw [tick_role h]
  split_ifs with hrst
  · rfl
  · exact hrole.resolve_right hrst

theorem System.wf_iff (y : System) : y.wf = true ↔ y.sender.role = .sender ∧ y.receiver.role = .receiver := by
  simp [System.wf]

/-- The system answers when each device does, with the devices' answers (R184). -/
theorem System.tick_of_ticks {y : System} {q : SystemPorts} {s r : State} (hs : Sys2Proof.Machine.tick y.sender q.toSender = .next s)
    (hr : Sys2Proof.Machine.tick y.receiver (q.toReceiver y.sender.tx.level) = .next r) :
    y.tick q = .next { sender := s, receiver := r } := by
  unfold System.tick
  rw [hs, hr]

/-- Settles O60: every step answers, and each device's role is the one its strap is tied to. -/
theorem systemTickIsOneTickOfEachDevice : Obligations.SystemTickIsOneTickOfEachDevice := by
  intro y q
  obtain ⟨s, hs⟩ : ∃ s, Sys2Proof.Machine.tick y.sender q.toSender = .next s := stepAlwaysAnswersANextState _
  obtain ⟨r, hr⟩ : ∃ r, Sys2Proof.Machine.tick y.receiver (q.toReceiver y.sender.tx.level) = .next r :=
    stepAlwaysAnswersANextState _
  refine ⟨⟨s, r⟩, System.tick_of_ticks hs hr, hs, hr, fun hwf => ?_, fun hresetS hresetR => ?_⟩
  · obtain ⟨hsender, hreceiver⟩ := y.wf_iff.mp hwf
    exact (System.wf_iff _).mpr ⟨tick_role_of_strap hs (.inl hsender), tick_role_of_strap hr (.inl hreceiver)⟩
  · exact (System.wf_iff _).mpr ⟨tick_role_of_strap hs (.inr hresetS), tick_role_of_strap hr (.inr hresetR)⟩

end Sys2Proof.Machine
end

section
/-! Timing errors on receive: every period a session holds lies between `Scale(a)` and `Scale(b)`, and an interval is read against those
two ends (R193). -/

namespace Sys2Proof.Machine

/-- The margin shrinks: `Scale` never exceeds its argument (R11 item 2). -/
theorem scale_le_self (P : Params) {d : Nat} (hm : P.marginNum < P.marginDen) : scale P d ≤ d :=
  (Nat.mod_le _ _).trans (Nat.div_le_of_le_mul (Nat.mul_le_mul_right d hm.le))

/-- `Scale` is monotone where no width cuts it (R11 item 2). -/
theorem scale_le_scale (P : Params) {a b : Nat} (hm : P.marginNum < P.marginDen) (hb : b < 2 ^ P.tsW) (hab : a ≤ b) :
    scale P a ≤ scale P b := by
  rw [scale_eq P a hm (hab.trans_lt hb), scale_eq P b hm hb]
  exact Nat.div_le_div_right (Nat.mul_le_mul_left _ hab)

/-- A period learned from an interval in `[a, b]`, or shrunk since to a short interval, lies between `Scale(a)` and `Scale(b)`
(R108, R112). -/
theorem learned_period_bounds {P : Params} {a b cal p : Nat} (hm : P.marginNum < P.marginDen) (hb : b < 2 ^ P.tsW)
    (hacal : a ≤ cal) (hcalb : cal ≤ b) (hp : p = scale P cal ∨ (p ≤ scale P cal ∧ a ≤ p ∧ p ≤ b)) :
    scale P a ≤ p ∧ p ≤ scale P b := by
  have hlow : scale P a ≤ scale P cal := scale_le_scale P hm (hcalb.trans_lt hb) hacal
  have hhigh : scale P cal ≤ scale P b := scale_le_scale P hm hb hcalb
  obtain rfl | ⟨hpcal, hap, _⟩ := hp
  · exact ⟨hlow, hhigh⟩
  · exact ⟨(scale_le_self P hm).trans hap, hpcal.trans hhigh⟩

theorem le_minUpdate_iff {lo p d : Nat} : lo ≤ minUpdate p d ↔ lo ≤ p ∧ lo ≤ d := by
  rw [minUpdate_eq_min, Nat.le_min]

theorem minUpdate_le_left (p d : Nat) : minUpdate p d ≤ p := by
  rw [minUpdate_eq_min]
  exact Nat.min_le_left p d

/-- An interval classifies as 0 against every period from `lo` on, if a longest short one does against `lo` (R111). -/
theorem classify_eq_false_of_le {lo b p d : Nat} (hshort : 2 * b < 3 * lo) (hd : d ≤ b) (hp : lo ≤ p) : classify d p = false := by
  rw [Bool.eq_false_iff, ne_eq, classify_iff]
  omega

/-- An interval classifies as 1 against every period up to `hi`, if a shortest long one does against `hi` (R111). -/
theorem classify_eq_true_of_le {hi c p l : Nat} (hlong : 3 * hi ≤ 2 * c) (hl : c ≤ l) (hp : p ≤ hi) : classify l p = true := by
  rw [classify_iff]
  omega

theorem scale_default {d : Nat} (hd : d < 2 ^ 32) : scale Params.default d = 9 * d / 10 :=
  scale_eq Params.default d (by decide) hd

/-- At the defaults the bounds of R193 hold of a symmetric error exactly up to 297 µs; the short intervals' bound is the one that fails
first. -/
theorem default_jitter_bounds_iff {e : Nat} (he : e ≤ 2000) :
    (Params.default.tNoise < scale Params.default (2000 - e) ∧ 2 * (2000 + e) < 3 * scale Params.default (2000 - e) ∧
      3 * scale Params.default (2000 + e) ≤ 2 * (4000 - e)) ↔ e ≤ 297 := by
  have hnoise : Params.default.tNoise = 1500 := rfl
  rw [hnoise, scale_default (by omega), scale_default (by omega)]
  omega

/-- Settles O38: the update keeps the period between `Scale(a)` and `Scale(b)`, and the three bounds speak of those two ends. -/
theorem jitterWithinTheBoundIsAbsorbed : Obligations.JitterWithinTheBoundIsAbsorbed := by
  refine ⟨?_, fun e he => default_jitter_bounds_iff he⟩
  intro P a b c cal p d l hm hb hnoise hshort hlong hacal hcalb hp had hdb hcl
  obtain ⟨hlow, hhigh⟩ := learned_period_bounds hm hb hacal hcalb hp
  have hupdate : scale P a ≤ minUpdate p d := le_minUpdate_iff.mpr ⟨hlow, (scale_le_self P hm).trans had⟩
  have hupdateLong : minUpdate p l ≤ scale P b := (minUpdate_le_left p l).trans hhigh
  exact ⟨hnoise.trans_le hlow, classify_eq_false_of_le hshort hdb hupdate, hnoise.trans_le hupdate,
    classify_eq_true_of_le hlong hcl hupdateLong⟩

end Sys2Proof.Machine
end
